-- ==== Sys2Proof/Word.lean ====
section
/-! DEFINITION. Word types of the MDIO transceiver (spec/00_scope.md R9, spec/10_state.md R13). -/

namespace Sys2Proof

/-- A GPIO register word or a command word: 32 bits. -/
abbrev Word := BitVec 32

/-- The 16-bit data field of a frame (R20). -/
abbrev Half := BitVec 16

/-- A PHY address or a register address: 5 bits (R12). -/
abbrev Addr5 := BitVec 5

/-- What somebody drives on a line: `none` is Z (not driven), `some b` a level (R71, R72). -/
abbrev Drive := Option Bool

end Sys2Proof
end

