-- ==== Sys2Proof/Syntax.lean ====
section
/-! DEFINITION. The operation set: the seven rows of spec/opcode_table.json (spec/30_encoding.md R67). -/

namespace Sys2Proof

/-- The two logical lines (R11). -/
inductive Line where
  | mdio
  | mdc
deriving DecidableEq, Repr

/-- One constructor per row of the opcode table. `write` and `read` are the commands a host issues (R53);
the other five are the Bus Driver micro-ops of a trace (R62). The 18 ignored bits of a READ word stay in the
term, so that a word and its instruction determine each other; no rule reads them (R60). -/
inductive Instr where
  | write (pa ra : Addr5) (data : Half)
  | read (pa ra : Addr5) (ignored : BitVec 18)
  | driveLow (l : Line)
  | driveHigh (l : Line)
  | setInput (l : Line)
  | setOutput (l : Line)
  | sample (l : Line)
deriving DecidableEq, Repr

/-- The host-level statements of R64, with their operands as the numbers a programmer writes. -/
inductive Stmt where
  | wr (pa ra data : Nat)
  | rd (pa ra : Nat)
  | abort
  | reset
  | wait
deriving DecidableEq, Repr

end Sys2Proof
end

