-- ==== Sys2Proof/Config.lean ====
section
/-! DEFINITION. The OPEN parameters of the block (spec/00_scope.md R7, spec/92_eei_decisions.md) and the free
values of the model. The parameters are launch arguments held in State (log entry 1); the free values are
opaque constants nobody can evaluate (log entries 5, 6). -/

namespace Sys2Proof

/-- The five registers of the GPIO window (R17). -/
inductive GpioReg where
  | dirSet
  | dirClr
  | outSet
  | outClr
  | inSample
deriving DecidableEq, Repr

/-- The parameters the document leaves open (R7). An idle level of `none` is the spec's `draw`. -/
structure Params where
  gpioBase : Word
  offDirSet : Word
  offDirClr : Word
  offOutSet : Word
  offOutClr : Word
  offIn : Word
  mdioBit : Fin 32
  mdcBit : Fin 32
  mdioIdle : Drive
  mdcIdle : Drive
deriving DecidableEq, Repr

/-- Byte offset of a register of the window. -/
def Params.offset (p : Params) : GpioReg → Word
  | .dirSet => p.offDirSet
  | .dirClr => p.offDirClr
  | .outSet => p.offOutSet
  | .outClr => p.offOutClr
  | .inSample => p.offIn

/-- `bit(L)` of R10: the bit index of a line, the same in all five registers (D15). -/
def Params.bitOf (p : Params) : Line → Fin 32
  | .mdio => p.mdioBit
  | .mdc => p.mdcBit

/-- Illustrative parameter values: the bit positions of spec/40_bus_driver.md's examples, and a base and
offsets of the model's own. DESIGN CHOICE (log entry 1), unsafe: the spec leaves every one of them OPEN; only
State.reset uses them. The idle levels are the spec's default, draw (D22, D32). -/
def Params.illustrative : Params where
  gpioBase := 0x00000000
  offDirSet := 0x0
  offDirClr := 0x4
  offOutSet := 0x8
  offOutClr := 0xC
  offIn := 0x10
  mdioBit := 5
  mdcBit := 4
  mdioIdle := none
  mdcIdle := none

/-- Free value: a word nobody knows, a fresh one for each index. Bits of IN that no rule gives, levels that
R72 calls a draw, and the latches after a process termination (R134) are read from it (log entry 6). -/
opaque Config.freeWord : Nat → Word

/-- Free value: what the devices drive on MDIO when the oracle's listed answers are used up (R92, log entry
5). -/
opaque Config.freeDrive : Nat → Drive

end Sys2Proof
end

