-- ==== Sys2Proof/WellFormed.lean ====
section
/-! DEFINITION. What a well-formed instruction, host statement and parameter set is. -/

namespace Sys2Proof

/-- Every term of `Instr` is well formed: its field widths are those of the encoding, and every `pa`, `ra`,
`data`, ignored bit and line is legal (R41, R53, R60, R62). The checks that can fail are made where a field is
wider than its encoding: `Stmt.wf` for the host's numbers and the decoder for words. -/
def Instr.wf : Instr → Bool
  | .write _ _ _ => true
  | .read _ _ _ => true
  | .driveLow _ => true
  | .driveHigh _ => true
  | .setInput _ => true
  | .setOutput _ => true
  | .sample _ => true

/-- The operand ranges of R54 and R64: `pa` and `ra` in 0..31, `data` in 0..0xFFFF. -/
def Stmt.wf : Stmt → Bool
  | .wr pa ra data => decide (pa < 32) && decide (ra < 32) && decide (data < 65536)
  | .rd pa ra => decide (pa < 32) && decide (ra < 32)
  | .abort => true
  | .reset => true
  | .wait => true

/-- The base and the five offsets are multiples of 4 (R41, D19). -/
def Params.aligned (p : Params) : Bool :=
  decide (p.gpioBase.toNat % 4 = 0) && decide (p.offDirSet.toNat % 4 = 0) &&
  decide (p.offDirClr.toNat % 4 = 0) && decide (p.offOutSet.toNat % 4 = 0) &&
  decide (p.offOutClr.toNat % 4 = 0) && decide (p.offIn.toNat % 4 = 0)

/-- No two offsets coincide (R41). -/
def Params.distinctOffsets (p : Params) : Bool :=
  decide ([p.offDirSet, p.offDirClr, p.offOutSet, p.offOutClr, p.offIn].Nodup)

/-- The parameter sets the model admits: R41 and premise (4) of R124. -/
def Params.wf (p : Params) : Bool :=
  p.aligned && p.distinctOffsets && decide (p.mdioBit ≠ p.mdcBit)

end Sys2Proof
end

