-- ==== Sys2Proof/Decode.lean ====
section
/-! DEFINITION. Decoding of command words and micro-op codes, and the encoder (spec/30_encoding.md). The block
fetches no bytes: a command is one 32-bit word (R53), a micro-op one 4-bit code (R62). -/

namespace Sys2Proof

/-- A word of either format of R52 that names an operation. -/
inductive InstrWord where
  | cmd32 (w : Word)
  | uop4 (u : BitVec 4)
deriving DecidableEq, Repr

/-- Why a word is no instruction. -/
inductive DecodeError where
  /-- ST is not `01` (R60). -/
  | badStart
  /-- OP is `00` or `11` (R60). -/
  | badOpcode
  /-- A WRITE word whose TA is not `10` (R60). -/
  | badTurnaround
  /-- A micro-op kind 101, 110 or 111 (R63). -/
  | reservedKind
deriving DecidableEq, Repr

/-- The fields of a command word (R53). -/
def cmdSt (c : Word) : BitVec 2 := c.extractLsb' 30 2
def cmdOp (c : Word) : BitVec 2 := c.extractLsb' 28 2
def cmdPa (c : Word) : Addr5 := c.extractLsb' 23 5
def cmdRa (c : Word) : Addr5 := c.extractLsb' 18 5
def cmdTa (c : Word) : BitVec 2 := c.extractLsb' 16 2
def cmdData (c : Word) : Half := c.extractLsb' 0 16
def cmdIgnored (c : Word) : BitVec 18 := c.extractLsb' 0 18

/-- The OP codes of R59. -/
def opWrite : BitVec 2 := 0b01#2
def opRead : BitVec 2 := 0b10#2

/-- Decode a command word (R53, R60). -/
def decodeCmd (c : Word) : Except DecodeError Instr :=
  if cmdSt c ≠ 0b01#2 then .error .badStart
  else if cmdOp c = opWrite then
    if cmdTa c = 0b10#2 then .ok (.write (cmdPa c) (cmdRa c) (cmdData c)) else .error .badTurnaround
  else if cmdOp c = opRead then .ok (.read (cmdPa c) (cmdRa c) (cmdIgnored c))
  else .error .badOpcode

/-- Bit 0 of a micro-op code: 0 is MDIO, 1 is MDC (R62). -/
def lineOfBit (b : Bool) : Line := if b then .mdc else .mdio

def bitOfLine : Line → BitVec 1
  | .mdio => 0#1
  | .mdc => 1#1

/-- Decode a micro-op code (R62, R63). -/
def decodeUop (u : BitVec 4) : Except DecodeError Instr :=
  let kind := u.extractLsb' 1 3
  let l := lineOfBit (u.getLsbD 0)
  if kind = 0b000#3 then .ok (.driveLow l)
  else if kind = 0b001#3 then .ok (.driveHigh l)
  else if kind = 0b010#3 then .ok (.setInput l)
  else if kind = 0b011#3 then .ok (.setOutput l)
  else if kind = 0b100#3 then .ok (.sample l)
  else .error .reservedKind

/-- Decode a word of either format. -/
def decode : InstrWord → Except DecodeError Instr
  | .cmd32 w => decodeCmd w
  | .uop4 u => decodeUop u

/-- A micro-op code from its kind and line (R62). -/
def uopCode (kind : BitVec 3) (l : Line) : BitVec 4 := kind ++ bitOfLine l

/-- The word of an instruction, written from R53 and R62. -/
def encode : Instr → InstrWord
  | .write pa ra data => .cmd32 (0b01#2 ++ opWrite ++ pa ++ ra ++ 0b10#2 ++ data)
  | .read pa ra ignored => .cmd32 (0b01#2 ++ opRead ++ pa ++ ra ++ ignored)
  | .driveLow l => .uop4 (uopCode 0b000#3 l)
  | .driveHigh l => .uop4 (uopCode 0b001#3 l)
  | .setInput l => .uop4 (uopCode 0b010#3 l)
  | .setOutput l => .uop4 (uopCode 0b011#3 l)
  | .sample l => .uop4 (uopCode 0b100#3 l)

/-- The host encoder of R54 for `write(phyAddr, regAddr, data)`: numbers out of range are refused, never
truncated. -/
def hostWriteWord (pa ra data : Nat) : Option Word :=
  if pa < 32 ∧ ra < 32 ∧ data < 65536 then
    some (0x50020000#32 ||| BitVec.ofNat 32 pa <<< 23 ||| BitVec.ofNat 32 ra <<< 18 ||| BitVec.ofNat 32 data)
  else none

/-- The host encoder of R54 for `read(phyAddr, regAddr)`; the ignored bits are 0 (R64). -/
def hostReadWord (pa ra : Nat) : Option Word :=
  if pa < 32 ∧ ra < 32 then
    some (0x60000000#32 ||| BitVec.ofNat 32 pa <<< 23 ||| BitVec.ofNat 32 ra <<< 18)
  else none

/-- The instruction the decoder reads from an instruction whose bits are `w`: a `cmd32` word when the row has
32 bits; a `uop4` code, alone in a byte whose upper bits are 0, when it has at most 8 (log entry 15). -/
def decodeTableWord (nbits w : Nat) : Option Instr :=
  if nbits = 32 then
    if w < 2 ^ 32 then (decodeCmd (BitVec.ofNat 32 w)).toOption else none
  else if nbits ≤ 8 then
    if w < 16 then (decodeUop (BitVec.ofNat 4 w)).toOption else none
  else none

end Sys2Proof
end

