-- ==== Sys2Proof/Machine/State.lean ====
section
/-! DEFINITION. The state of the machine as plain data (spec/10_state.md R13 to R30), the environment it runs in
(R6, R28, R92, R104), why a step can stop, and the state at launch. -/

namespace Sys2Proof.Machine

/-- Which trace the sequencer walks (R18). -/
inductive Mode where
  | idle
  | wr
  | rd
  | rst
deriving DecidableEq, Repr

/-- The command latch (R20, R54): `op` is `01` or `10`, `wdata` holds no value for a READ. -/
structure Cmd where
  op : BitVec 2
  pa : Addr5
  ra : Addr5
  wdata : Option Half
deriving DecidableEq, Repr

/-- The sticky fault bits (R25); `fault[0]` to `fault[3]` of R107 in this order. -/
structure FaultSet where
  illegalCommand : Bool
  cmdWhileBusy : Bool
  contention : Bool
  mapFailed : Bool
deriving DecidableEq, Repr

/-- The line events of HIST (R26, R71). `rise` and `fall` are of MDC, `drive` of MDIO. -/
inductive LineEvent where
  | rise
  | fall
  | drive (b : Bool)
  | take (l : Line) (b : Bool)
  | release (l : Line)
  | sample (b : Bool)
deriving DecidableEq, Repr

/-- One access at the GPIO master port (R29, R34). -/
inductive GpioAccess where
  | write (addr w : Word)
  | read (addr : Word)
deriving DecidableEq, Repr

/-- What ReadStatus reports (R29). -/
structure Status where
  busy : Bool
  rdata : Option Half
  rdv : Bool
  aborted : Bool
  fault : BitVec 4
deriving DecidableEq, Repr

/-- The frame phases (R19, R96, R100). -/
inductive Phase where
  | setup
  | preamble
  | start
  | opcode
  | phyad
  | regad
  | ta
  | data
  | release
deriving DecidableEq, Repr

/-- The registers of the reference device (R104): (pa * 32 + ra, value), keys strictly rising, no value 0; an
unlisted register reads as 0 (log entry 19). -/
abbrev RegFile := List (Nat × Half)

/-- Where the reference device's decoder stands (R104); the tails know the frame's PA and RA. -/
inductive DecoderPhase where
  | hunting
  | framing
  | writeTail (pa ra : Addr5)
  | readTail (pa ra : Addr5)
deriving DecidableEq, Repr

/-- The reference device of R104. `pos` counts the frame's rising edges from the first START bit on, so that
the latest one was of slot `pos + 31`; `drive` is what it drives on MDIO. -/
structure RefDevice where
  present : List Addr5
  regs : RegFile
  phase : DecoderPhase
  ones : Nat
  pos : Nat
  buffer : List Bool
  drive : Drive
deriving DecidableEq, Repr

/-- DEVICES (R7, R92, D25): the free oracle with the answers it gives at the coming sequencer steps (when they
are used up, the free value `Config.freeDrive` answers), or the reference device. -/
inductive Devices where
  | oracle (answers : List Drive)
  | reference (d : RefDevice)
deriving DecidableEq, Repr

/-- What comes next in the interleaving of R90 (log entry 4). -/
inductive Turn where
  /-- The host action Issue(C) (R29). -/
  | issue (c : Word)
  /-- The host action Abort (R109). -/
  | abort
  /-- The host action Reset (R122). -/
  | reset
  /-- The host action ReadStatus (R29). -/
  | readStatus
  /-- One cycle of a clocked implementation that samples `reset`, `abort` and `cmd_valid` together (R112). -/
  | sampled (reset abort : Bool) (cmd : Option Word)
  /-- One sequencer step (R91). -/
  | sequencer
  /-- The pseudo-instruction WAIT (R64): the host polls, the sequencer moves, until BUSY = 0. -/
  | wait
  /-- Another agent writes a register of the GPIO block (R42, R51, log entry 17). -/
  | otherAgent (r : GpioReg) (w : Word)
  /-- The host process ends in mid-frame (R134, log entry 16). -/
  | terminate
deriving DecidableEq, Repr

/-- The whole state: R13's elements, the launch parameters of R7, the environment, and the model's own
`draws`, `port`, `turns` and `terminated` (INVENTORY.md, State); `terminated` marks that a process termination has
come since the last Reset, until when the idle invariant is not claimed (R134); no step reads it. BUSY and IN are derived (R23, R16). -/
structure State where
  params : Params
  dir : Word
  out : Word
  mode : Mode
  upc : Nat
  cmd : Option Cmd
  sr : Option Half
  rdata : Option Half
  rdv : Bool
  aborted : Bool
  apend : Bool
  fault : FaultSet
  hist : List LineEvent
  devices : Devices
  draws : Nat
  port : List GpioAccess
  turns : List Turn
  terminated : Bool
deriving DecidableEq, Repr

/-- Why the machine stops with a fault. The block's own faults are sticky bits of FAULT, not stops (R113). -/
inductive Fault where
  /-- A sequencer turn under MapFailed: no sequencer step is ever enabled again, the machine is stuck (R91,
  R125, 93 I21). Raised by `sequencerTurn`. Safe. -/
  | mapFailedStuck
deriving DecidableEq, Repr

/-- Why a step is refused. -/
inductive Refusal where
  /-- An instruction without a meaning; raised by no arm of `exec`. Safe. -/
  | notModelled (mnemonic : String)
  /-- A parameter set R41 and R124 do not admit (93 I22). Raised by `step`. Safe. -/
  | badParameters
  /-- A GPIO access that is not 4 bytes wide (R35). Raised by `memWrite`, `memRead`. Safe. -/
  | gpioWidth
  /-- A GPIO access at an address that is no multiple of 4 (R41, 93 I8). Raised by `memWrite`, `memRead`. Safe. -/
  | gpioMisaligned
  /-- An access outside the five words of the window (R32, 93 I8). Raised by `memWrite`, `memRead`. Safe. -/
  | gpioUnmapped
  /-- A write to IN (R36, 93 I7). Raised by `memWrite`, `otherAgentWrite`. Safe. -/
  | gpioWriteToInput
  /-- A read of a set or clear register (R36, 93 I6). Raised by `memRead`. Safe. -/
  | gpioReadOfSetClear
  /-- A micro-op code that names nothing (R63, 93 I12). Raised by `sequencerTurn`. Safe. -/
  | reservedMicroOp
  /-- A sequencer position that holds no micro-op: not a trace of R103. Raised by `sequencerTurn`. Safe. -/
  | noSuchMicroOp
  /-- Another agent writes the block's own bits, which premise R51 excludes. Raised by `otherAgentWrite`. Safe. -/
  | ownershipBroken
deriving DecidableEq, Repr

/-- No fault. -/
def FaultSet.empty : FaultSet := ⟨false, false, false, false⟩

/-- Power on (R30, R121, R125) with the launch inputs of R7: the parameters, `mapped`, whatever the latches
hold, the devices, and what the outside will do. -/
def State.launch (p : Params) (mapped : Bool) (dir out : Word) (devices : Devices) (turns : List Turn) :
    State where
  params := p
  dir := dir
  out := out
  mode := .rst
  upc := 0
  cmd := none
  sr := none
  rdata := none
  rdv := false
  aborted := false
  apend := false
  fault := ⟨false, false, false, !mapped⟩
  hist := []
  devices := devices
  draws := 0
  port := []
  turns := turns
  terminated := false

/-- The launch with the model's own choices: illustrative parameters, `mapped` at its default, latches 0, free
devices, an outside that does nothing (log entries 1, 2, 4, 5). DESIGN CHOICE, unsafe where R30 says
unspecified; statements about reset are made about `State.launch`. -/
def State.reset : State := State.launch Params.illustrative true 0 0 (.oracle []) []

end Sys2Proof.Machine
end

