-- ==== Sys2Proof/Machine/Ops.lean ====
section
/-! DEFINITION. The named operations: the GPIO window and its registers (spec/20_memory.md, spec/10_state.md
R14 to R17), the lines (spec/40_bus_driver.md R71, R72), raising a fault (R25), accepting a command (R94),
abort (R109), reset (R122) and completion (R102). -/

namespace Sys2Proof.Machine

/-! ### Bits of a register word -/

/-- `bitmask(L) = 1 << bit(L)` (R10). -/
def bitmask (p : Params) (l : Line) : Word := 1#32 <<< (p.bitOf l).val

/-- `w` with bit `k` at level `b`, or left as it is where no level is known. -/
def withLevel (w : Word) (k : Fin 32) : Drive → Word
  | none => w
  | some true => w ||| (1#32 <<< k.val)
  | some false => w &&& ~~~(1#32 <<< k.val)

/-- `DIR[L]` (R14). -/
def State.dirBit (s : State) (l : Line) : Bool := s.dir.getLsbD (s.params.bitOf l).val

/-- `OUT[L]` (R15). -/
def State.outBit (s : State) (l : Line) : Bool := s.out.getLsbD (s.params.bitOf l).val

/-! ### Lines -/

/-- The host-side drive `drv(L)` (R71). -/
def State.drv (s : State) (l : Line) : Drive := if s.dirBit l then some (s.outBit l) else none

/-- The events of R71's table for line `l` between two host-side drives. -/
def lineEvents (l : Line) (before after : Drive) : List LineEvent :=
  match before, after with
  | none, none => []
  | none, some b => [.take l b]
  | some _, none => [.release l]
  | some a, some b =>
    if a = b then []
    else match l with
      | .mdio => [.drive b]
      | .mdc => if b then [.rise] else [.fall]

/-- `dev`: what the devices drive on MDIO now (R92). -/
def State.devNow (s : State) : Drive :=
  match s.devices with
  | .oracle (a :: _) => a
  | .oracle [] => Config.freeDrive s.draws
  | .reference d => d.drive

/-- `wire(L)` (R72); `none` is a level the spec calls a draw. -/
def State.wire (s : State) : Line → Option Bool
  | .mdc => if s.dirBit .mdc then some (s.outBit .mdc) else s.params.mdcIdle
  | .mdio =>
    if s.dirBit .mdio then
      if s.devNow = none then some (s.outBit .mdio) else none
    else
      match s.devNow with
      | some b => some b
      | none => s.params.mdioIdle

/-- What IN reports for line `l`: its wire level, but nothing the spec gives while the host drives the line
(R16, 93 I5; log entry 7). -/
def State.padLevel (s : State) (l : Line) : Option Bool := if s.dirBit l then none else s.wire l

/-- The word a read of IN gives (R75): each line's bit where R16 gives it, free bits elsewhere. -/
def State.inWord (s : State) : Word :=
  withLevel (withLevel (Config.freeWord s.draws) s.params.mdioBit (s.padLevel .mdio))
    s.params.mdcBit (s.padLevel .mdc)

/-! ### The GPIO window -/

/-- The address of a register of the window (R32). -/
def gpioAddr (p : Params) (r : GpioReg) : Word := p.gpioBase + p.offset r

/-- Which register of the window an address names (R32, R44). -/
def regAt (p : Params) (a : Word) : Option GpioReg :=
  if a = gpioAddr p .dirSet then some .dirSet
  else if a = gpioAddr p .dirClr then some .dirClr
  else if a = gpioAddr p .outSet then some .outSet
  else if a = gpioAddr p .outClr then some .outClr
  else if a = gpioAddr p .inSample then some .inSample
  else none

/-- The effect of a word on the latches: a 1 sets or clears its bit, a 0 changes nothing (R17, R43). -/
def regWrite (r : GpioReg) (w : Word) (s : State) : State :=
  match r with
  | .dirSet => { s with dir := s.dir ||| w }
  | .dirClr => { s with dir := s.dir &&& ~~~w }
  | .outSet => { s with out := s.out ||| w }
  | .outClr => { s with out := s.out &&& ~~~w }
  | .inSample => s

/-- `MemWrite(addr, n, w)` (R10), refused unless it is a whole aligned word of a set or clear register (R35,
R36, R41). -/
def memWrite (a : Word) (bytes : Nat) (w : Word) (s : State) : Except Refusal State :=
  if bytes ≠ 4 then .error .gpioWidth
  else if a.toNat % 4 ≠ 0 then .error .gpioMisaligned
  else match regAt s.params a with
    | none => .error .gpioUnmapped
    | some .inSample => .error .gpioWriteToInput
    | some r => .ok { regWrite r w s with port := s.port ++ [.write a w] }

/-- `MemRead(addr, n)` (R10), refused unless it is a whole aligned read of IN (R35, R36, R41). It has no side
effect on the GPIO block (R43); the model's counter of free values moves on. -/
def memRead (a : Word) (bytes : Nat) (s : State) : Except Refusal (Word × State) :=
  if bytes ≠ 4 then .error .gpioWidth
  else if a.toNat % 4 ≠ 0 then .error .gpioMisaligned
  else match regAt s.params a with
    | none => .error .gpioUnmapped
    | some .inSample => .ok (s.inWord, { s with draws := s.draws + 1, port := s.port ++ [.read a] })
    | some _ => .error .gpioReadOfSetClear

/-- `GpioWrite(off, w)` (R10). -/
def gpioWrite (r : GpioReg) (w : Word) (s : State) : Except Refusal State :=
  memWrite (gpioAddr s.params r) 4 w s

/-- `GpioRead(off)` (R10). -/
def gpioRead (r : GpioReg) (s : State) : Except Refusal (Word × State) :=
  memRead (gpioAddr s.params r) 4 s

/-- `emit` (R10, R26). -/
def emit (es : List LineEvent) (s : State) : State := { s with hist := s.hist ++ es }

/-- The block's own bits of a register word (R14, R15). -/
def ownMask (p : Params) : Word := bitmask p .mdio ||| bitmask p .mdc

/-- A write of another agent to a set or clear register (R42, R51): the same register effect, but the block's
two bits are its own, and nothing is seen at the block's port. -/
def otherAgentWrite (r : GpioReg) (w : Word) (s : State) : Except Refusal State :=
  if r = .inSample then .error .gpioWriteToInput
  else if w &&& ownMask s.params = 0#32 then .ok (regWrite r w s)
  else .error .ownershipBroken

/-! ### Faults -/

/-- `raise Fault(kind)` (R10, R25). -/
def raiseIllegalCommand (s : State) : State := { s with fault := { s.fault with illegalCommand := true } }
def raiseCmdWhileBusy (s : State) : State := { s with fault := { s.fault with cmdWhileBusy := true } }
/-- `raise Fault(Contention)` where `c` holds (R91). -/
def raiseContentionIf (c : Bool) (s : State) : State :=
  { s with fault := { s.fault with contention := s.fault.contention || c } }

/-! ### Command accept, abort, reset, completion, termination -/

/-- Accept of a WRITE (R94). -/
def acceptWrite (pa ra : Addr5) (data : Half) (s : State) : State :=
  { s with
    cmd := some ⟨opWrite, pa, ra, some data⟩, sr := some data, mode := .wr, upc := 0
    rdv := false, aborted := false, apend := false }

/-- Accept of a READ (R94). -/
def acceptRead (pa ra : Addr5) (s : State) : State :=
  { s with
    cmd := some ⟨opRead, pa, ra, none⟩, sr := some 0#16, mode := .rd, upc := 0
    rdv := false, aborted := false, apend := false }

/-- The length of a mode's trace (R18, R91). -/
def traceLen : Mode → Nat
  | .idle => 0
  | .wr => 198
  | .rd => 195
  | .rst => 2

/-- The first index from which an abort lets the trace run on (R109). -/
def abortLimit : Mode → Nat
  | .wr => 196
  | .rd => 142
  | .idle => 0
  | .rst => 0

/-- The host action Abort (R109): no effect in IDLE and RST. -/
def abortAction (s : State) : State :=
  if s.mode = .wr ∨ s.mode = .rd then
    { s with
      apend := true
      upc := if s.upc < abortLimit s.mode then traceLen s.mode - 2 else s.upc }
  else s

/-- The reset action (R122), which leaves the state of R30 but for FAULT (R121), DIR and OUT; HIST and the
record of the port start again empty (log entries 9, 10). -/
def resetAction (s : State) : State :=
  { s with
    mode := .rst, upc := 0, cmd := none, sr := none, rdata := none
    rdv := false, aborted := false, apend := false
    hist := [], port := [], terminated := false }

/-- Completion (R102). -/
def complete (s : State) : State :=
  match s.mode with
  | .rst => { s with apend := false, mode := .idle, upc := 0 }
  | .idle => { s with apend := false, mode := .idle, upc := 0 }
  | .wr =>
    { s with aborted := s.aborted || s.apend, apend := false, mode := .idle, upc := 0 }
  | .rd =>
    { s with
      rdata := if s.apend then s.rdata else s.sr
      rdv := s.rdv || !s.apend
      aborted := s.aborted || s.apend
      apend := false, mode := .idle, upc := 0 }

/-- Process termination (R134, D34): the block's bits of DIR and OUT are draws, nothing else changes, and every rule
goes on as before. DESIGN CHOICE (log entry 16): R134 speaks of a termination in the middle of a frame; the model
takes the turn in every mode, IDLE and RST included, and draws the bits there too. -/
def terminateAction (s : State) : State :=
  { s with
    dir := (s.dir &&& ~~~ownMask s.params) ||| (Config.freeWord s.draws &&& ownMask s.params)
    out := (s.out &&& ~~~ownMask s.params) ||| (Config.freeWord (s.draws + 1) &&& ownMask s.params)
    draws := s.draws + 2, terminated := true }

end Sys2Proof.Machine
end

