-- ==== Sys2Proof/Machine/Device.lean ====
section
/-! DEFINITION. The devices' side of a sequencer step: the oracle's answers (spec/42_transactions.md R92) and the
reference device (R104). The device is a model of the environment, not of the block. -/

namespace Sys2Proof.Machine

/-- The key of register (pa, ra). -/
def regKey (pa ra : Addr5) : Nat := pa.toNat * 32 + ra.toNat

/-- Read a key; an unlisted one reads as 0. -/
def regGet : RegFile → Nat → Half
  | [], _ => 0#16
  | (k, v) :: rest, a => if k = a then v else regGet rest a

/-- An entry at the head, left out when it holds what an unlisted key reads as. -/
def regCons (a : Nat) (v : Half) (rest : RegFile) : RegFile := if v = 0#16 then rest else (a, v) :: rest

/-- Write a key, keeping the canonical form. -/
def regPut : RegFile → Nat → Half → RegFile
  | [], a, v => regCons a v []
  | (k, x) :: rest, a, v =>
    if a < k then regCons a v ((k, x) :: rest)
    else if a = k then regCons a v rest
    else (k, x) :: regPut rest a v

/-- The canonical form: every key above `lo` and strictly rising, no entry 0. -/
def regSorted (lo : Nat) : RegFile → Bool
  | [] => true
  | (k, v) :: rest => decide (lo ≤ k) && decide (v ≠ 0#16) && regSorted (k + 1) rest

def RegFile.wf (r : RegFile) : Bool := regSorted 0 r

/-- Bits, the first the most significant, as a number (R39). -/
def msbFirst (bs : List Bool) : Nat := bs.foldl (fun n b => 2 * n + b.toNat) 0

/-- Back to hunting, with no ones counted. -/
def RefDevice.hunt (d : RefDevice) : RefDevice :=
  { d with phase := .hunting, ones := 0, pos := 0, buffer := [] }

/-- The header is complete: `{ST[0], OP, PA, RA}` are the 13 buffered bits (R104). -/
def RefDevice.header (d : RefDevice) (bs : List Bool) : RefDevice :=
  let op := msbFirst ((bs.drop 1).take 2)
  let pa := BitVec.ofNat 5 (msbFirst ((bs.drop 3).take 5))
  let ra := BitVec.ofNat 5 (msbFirst ((bs.drop 8).take 5))
  if bs.head? ≠ some true then d.hunt
  else if op = 1 then { d with phase := .writeTail pa ra, buffer := [] }
  else if op = 2 then { d with phase := .readTail pa ra, buffer := [] }
  else d.hunt

/-- A rising edge of MDC with level `v` on MDIO (R104). -/
def RefDevice.rise (d : RefDevice) (v : Bool) : RefDevice :=
  match d.phase with
  | .hunting =>
    if v then { d with ones := d.ones + 1 }
    else if 32 ≤ d.ones then { d with phase := .framing, pos := 1, buffer := [] }
    else { d with ones := 0 }
  | .framing =>
    let bs := d.buffer ++ [v]
    let d' := { d with pos := d.pos + 1, buffer := bs }
    if bs.length = 13 then d'.header bs else d'
  | .writeTail pa ra =>
    let bs := d.buffer ++ [v]
    let d' := { d with pos := d.pos + 1, buffer := bs }
    if bs.length = 18 then
      (if pa ∈ d.present then { d' with regs := regPut d.regs (regKey pa ra) (BitVec.ofNat 16 (msbFirst (bs.drop 2))) }
       else d').hunt
    else d'
  | .readTail pa ra =>
    let slot := d.pos + 32
    let d' := { d with pos := d.pos + 1 }
    if slot = 46 then { d' with drive := none }
    else if 47 ≤ slot ∧ slot ≤ 62 ∧ pa ∈ d.present then
      { d' with drive := some ((regGet d.regs (regKey pa ra)).getLsbD (62 - slot)) }
    else d'

/-- A falling edge of MDC: it matters at slot 62 of a read tail (R104). DESIGN CHOICE (log entry 19): where that
fall never comes (a Reset between the rise and the fall of slot 62), any later fall ends the tail too. -/
def RefDevice.fall (d : RefDevice) : RefDevice :=
  match d.phase with
  | .hunting => d
  | .framing => d
  | .writeTail _ _ => d
  | .readTail _ _ => if 31 ≤ d.pos then { d.hunt with drive := none } else d

/-- The devices after a sequencer step that took the state from `s` to `t`: the oracle's answer is used up, the
reference device sees the step's edge of MDC with the level R72 gives MDIO (a level that is a draw is a free
bit). -/
def devicesAfter (s t : State) : State :=
  match s.devices with
  | .oracle (_ :: rest) => { t with devices := .oracle rest }
  | .oracle [] => { t with draws := t.draws + 1 }
  | .reference d =>
    match lineEvents .mdc (s.drv .mdc) (t.drv .mdc) with
    | [.rise] =>
      match t.wire .mdio with
      | some v => { t with devices := .reference (d.rise v) }
      | none =>
        { t with
          devices := .reference (d.rise ((Config.freeWord t.draws).getLsbD t.params.mdioBit.val))
          draws := t.draws + 1 }
    | [.fall] => { t with devices := .reference d.fall }
    | _ => t

end Sys2Proof.Machine
end

