-- ==== Sys2Proof/Machine/Flags.lean ====
section
/-! DEFINITION. The status flags and the status a host reads (spec/10_state.md R23 to R25, R29). -/

namespace Sys2Proof.Machine

/-- BUSY (R23). -/
def State.busy (s : State) : Bool := decide (s.mode ≠ .idle)

/-- A sequencer step is enabled (R91). -/
def State.enabled (s : State) : Bool := s.busy && !s.fault.mapFailed

/-- The 4-bit `fault` output (R29, R107): bit 0 IllegalCommand, 1 CmdWhileBusy, 2 Contention, 3 MapFailed. -/
def FaultSet.code (f : FaultSet) : BitVec 4 :=
  BitVec.ofBool f.mapFailed ++ BitVec.ofBool f.contention ++ BitVec.ofBool f.cmdWhileBusy ++
    BitVec.ofBool f.illegalCommand

/-- ReadStatus (R29), a pure read. `rdata` has no value while RDV = 0 (R22, 93 I14; log entry 26); the register
RDATA itself keeps what it holds. -/
def State.status (s : State) : Status where
  busy := s.busy
  rdata := if s.rdv then s.rdata else none
  rdv := s.rdv
  aborted := s.aborted
  fault := s.fault.code

end Sys2Proof.Machine
end

