-- ==== Sys2Proof/Machine/Operands.lean ====
section
/-! DEFINITION. The operands of a frame: the header, the bit of each slot (spec/30_encoding.md R55 to R57), the
host's statements (R54, R64). -/

namespace Sys2Proof.Machine

/-- The header word `H = {ST, OP, PA, RA}` (R57). -/
def header (c : Cmd) : BitVec 14 := 0b01#2 ++ c.op ++ c.pa ++ c.ra

/-- `b_k` of `frame-write` (R55): 32 ones, the header, TA `10`, the data, MSB first. No value past the frame or
where the latch holds no data. -/
def writeBit (c : Cmd) (k : Nat) : Option Bool :=
  if k < 32 then some true
  else if k < 46 then some ((header c).getLsbD (45 - k))
  else if k = 46 then some true
  else if k = 47 then some false
  else if k < 64 then c.wdata.map (fun d => d.getLsbD (63 - k))
  else none

/-- The host's bit `b_k` of `frame-read` (R56), slots 0 to 45. -/
def readBit (c : Cmd) (k : Nat) : Option Bool :=
  if k < 32 then some true
  else if k < 46 then some ((header c).getLsbD (45 - k))
  else none

/-- What a statement makes the host do (R64): an operand out of range is refused (R54). -/
def stmtTurn : Stmt → Option Turn
  | .wr pa ra data => (hostWriteWord pa ra data).map .issue
  | .rd pa ra => (hostReadWord pa ra).map .issue
  | .abort => some .abort
  | .reset => some .reset
  | .wait => some .wait

/-- A program of statements as the turns it makes; refused when one of its statements is. -/
def programTurns : List Stmt → Option (List Turn)
  | [] => some []
  | p :: ps =>
    match stmtTurn p, programTurns ps with
    | some t, some ts => some (t :: ts)
    | _, _ => none

end Sys2Proof.Machine
end

