-- ==== Sys2Proof/Machine/Trace.lean ====
section
/-! DEFINITION. The traces the sequencer walks (spec/42_transactions.md R95, R99, R103; spec/41_frame_phases.md),
their phases and slots (R96, R100), and the shift register's places in them (R85, R86). -/

namespace Sys2Proof.Machine

/-- The micro-op codes of R62, named as R65 writes them. -/
def drvL (l : Line) : BitVec 4 := uopCode 0b000#3 l
def drvH (l : Line) : BitVec 4 := uopCode 0b001#3 l
def setIn (l : Line) : BitVec 4 := uopCode 0b010#3 l
def setOut (l : Line) : BitVec 4 := uopCode 0b011#3 l
def smpL (l : Line) : BitVec 4 := uopCode 0b100#3 l

/-- The first micro-op of BIT(b) (R79). -/
def drvBit (b : Bool) : BitVec 4 := if b then drvH .mdio else drvL .mdio

/-- SETUP (R78), `upc` 0 to 3. -/
def setupUop : Nat → Option (BitVec 4)
  | 0 => some (drvL .mdc)
  | 1 => some (drvH .mdio)
  | 2 => some (setOut .mdc)
  | 3 => some (setOut .mdio)
  | _ => none

/-- RELEASE (R87), its two accesses. -/
def releaseUop : Nat → Option (BitVec 4)
  | 0 => some (setIn .mdio)
  | 1 => some (setIn .mdc)
  | _ => none

/-- Micro-op `m` of the three of BIT(b) (R79). -/
def cellUop (b : Option Bool) (m : Nat) : Option (BitVec 4) :=
  if m = 0 then b.map drvBit
  else if m = 1 then some (drvH .mdc)
  else some (drvL .mdc)

/-- Micro-op `m` of the three of a data-in cell (R86). -/
def sampleCellUop (m : Nat) : BitVec 4 :=
  if m = 0 then drvH .mdc else if m = 1 then smpL .mdio else drvL .mdc

/-- The WRITE trace at `upc` (R95). -/
def writeTrace (c : Cmd) (n : Nat) : Option (BitVec 4) :=
  if n < 4 then setupUop n
  else if n < 196 then cellUop (writeBit c ((n - 4) / 3)) ((n - 4) % 3)
  else releaseUop (n - 196)

/-- The READ trace at `upc` (R99). -/
def readTrace (c : Cmd) (n : Nat) : Option (BitVec 4) :=
  if n < 4 then setupUop n
  else if n < 142 then cellUop (readBit c ((n - 4) / 3)) ((n - 4) % 3)
  else if n = 142 then some (setIn .mdio)
  else if n = 143 then some (drvH .mdc)
  else if n = 144 then some (drvL .mdc)
  else if n < 193 then some (sampleCellUop ((n - 145) % 3))
  else releaseUop (n - 193)

/-- `trace(mode, CMD)[upc]` (R91); the RST trace is R123's. -/
def trace (m : Mode) (c : Option Cmd) (n : Nat) : Option (BitVec 4) :=
  match m with
  | .idle => none
  | .rst => releaseUop n
  | .wr => c.bind (fun c => writeTrace c n)
  | .rd => c.bind (fun c => readTrace c n)

/-- The micro-op code the next sequencer step performs. -/
def State.nextUop (s : State) : Option (BitVec 4) := trace s.mode s.cmd s.upc

/-- The phase at `upc` (R96, R100). -/
def phaseOf (m : Mode) (n : Nat) : Option Phase :=
  match m with
  | .idle => none
  | .rst => if n < 2 then some .release else none
  | .wr =>
    if n < 4 then some .setup else if n < 100 then some .preamble else if n < 106 then some .start
    else if n < 112 then some .opcode else if n < 127 then some .phyad else if n < 142 then some .regad
    else if n < 148 then some .ta else if n < 196 then some .data else if n < 198 then some .release else none
  | .rd =>
    if n < 4 then some .setup else if n < 100 then some .preamble else if n < 106 then some .start
    else if n < 112 then some .opcode else if n < 127 then some .phyad else if n < 142 then some .regad
    else if n < 145 then some .ta else if n < 193 then some .data else if n < 195 then some .release else none

/-- The slot at `upc` (R96, R100): none in SETUP and RELEASE. -/
def slotOf (m : Mode) (n : Nat) : Option Nat :=
  match m with
  | .idle => none
  | .rst => none
  | .wr => if 4 ≤ n ∧ n < 196 then some ((n - 4) / 3) else none
  | .rd => if 4 ≤ n ∧ n < 193 then some ((n - 4) / 3) else none

/-- The sequencer is at the first micro-op of a data-out bit (R85). -/
def State.atDataOut (s : State) : Bool :=
  decide (s.mode = .wr ∧ 148 ≤ s.upc ∧ s.upc < 196 ∧ (s.upc - 148) % 3 = 0)

/-- The sequencer is at the SAMPLE of a data-in bit (R86). -/
def State.atDataIn (s : State) : Bool :=
  decide (s.mode = .rd ∧ 145 ≤ s.upc ∧ s.upc < 193 ∧ (s.upc - 145) % 3 = 1)

/-- The 16-bit left shift with `b` entering at bit 0 (R88). -/
def shiftLeft (v : Half) (b : Bool) : Half := v <<< 1 ||| (if b then 1#16 else 0#16)

/-- `SR <- (SR << 1) mod 2^16` when a data-out bit has been driven on MDIO (R85). -/
def shiftOut (l : Line) (s : State) : State :=
  if l = .mdio ∧ s.atDataOut then { s with sr := s.sr.map (fun v => shiftLeft v false) } else s

/-- `SR <- ((SR << 1) | b) mod 2^16` when `b` is a data-in sample (R86). -/
def shiftIn (b : Bool) (s : State) : State :=
  if s.atDataIn then { s with sr := s.sr.map (fun v => shiftLeft v b) } else s

/-- A trace listing line of R65: index, mnemonic, line. -/
def lineName : Line → String
  | .mdio => "MDIO"
  | .mdc => "MDC"

def listing (n : Nat) : Instr → String
  | .write pa ra data => "WR " ++ toString pa.toNat ++ ", " ++ toString ra.toNat ++ ", " ++ toString data.toNat
  | .read pa ra _ => "RD " ++ toString pa.toNat ++ ", " ++ toString ra.toNat
  | .driveLow l => toString n ++ ": DRVL " ++ lineName l
  | .driveHigh l => toString n ++ ": DRVH " ++ lineName l
  | .setInput l => toString n ++ ": SETIN " ++ lineName l
  | .setOutput l => toString n ++ ": SETOUT " ++ lineName l
  | .sample l => toString n ++ ": SMPL " ++ lineName l

end Sys2Proof.Machine
end

