-- ==== Sys2Proof/Machine/BusDriver.lean ====
section
/-! DEFINITION. The five Bus Driver micro-ops (spec/40_bus_driver.md R68 to R77), each performed with the shift
register update of R85 or R86 that belongs to it in a trace (R91; log entry 11). -/

namespace Sys2Proof.Machine

/-- The common form of the four line operations (R68): one write of `bitmask(L)`, then the line's event. -/
def lineWrite (r : GpioReg) (l : Line) (s : State) : Except Refusal State :=
  match gpioWrite r (bitmask s.params l) s with
  | .error e => .error e
  | .ok t => .ok (emit (lineEvents l (s.drv l) (t.drv l)) t)

/-- A step's outcome from an operation that may be refused. -/
def outcome : Except Refusal State → Host.Outcome State Fault Refusal
  | .ok t => .next t
  | .error e => .refused e

/-- DRIVE_LOW (R70); at a data-out bit the shift register moves on (R85). -/
def execDriveLow (l : Line) (s : State) : Host.Outcome State Fault Refusal :=
  outcome ((lineWrite .outClr l s).map (shiftOut l))

/-- DRIVE_HIGH (R69); at a data-out bit the shift register moves on (R85). -/
def execDriveHigh (l : Line) (s : State) : Host.Outcome State Fault Refusal :=
  outcome ((lineWrite .outSet l s).map (shiftOut l))

/-- SET_INPUT (R74). -/
def execSetInput (l : Line) (s : State) : Host.Outcome State Fault Refusal :=
  outcome (lineWrite .dirClr l s)

/-- SET_OUTPUT (R73). -/
def execSetOutput (l : Line) (s : State) : Host.Outcome State Fault Refusal :=
  outcome (lineWrite .dirSet l s)

/-- SAMPLE (R75): read IN, take bit(L), emit Sample; at a data-in sample the bit enters the shift register
(R86). -/
def execSample (l : Line) (s : State) : Host.Outcome State Fault Refusal :=
  outcome ((gpioRead .inSample s).map fun r =>
    let b := r.1.getLsbD (s.params.bitOf l).val
    shiftIn b (emit [.sample b] r.2))

end Sys2Proof.Machine
end

