-- ==== Sys2Proof/Machine/Commands.lean ====
section
/-! DEFINITION. The two commands as the host action Issue(C) of a legal word (spec/42_transactions.md R94;
spec/60_exceptions.md R106). The trace a command starts is walked by the sequencer steps that follow. -/

namespace Sys2Proof.Machine

/-- WRITE: accepted when BUSY = 0 (R94), else CmdWhileBusy (R106). -/
def execWrite (pa ra : Addr5) (data : Half) (s : State) : Host.Outcome State Fault Refusal :=
  .next (if s.busy then raiseCmdWhileBusy s else acceptWrite pa ra data s)

/-- READ: accepted when BUSY = 0 (R94), else CmdWhileBusy (R106). The word's low 18 bits have no effect (R60). -/
def execRead (pa ra : Addr5) (_ignored : BitVec 18) (s : State) : Host.Outcome State Fault Refusal :=
  .next (if s.busy then raiseCmdWhileBusy s else acceptRead pa ra s)

end Sys2Proof.Machine
end

