-- ==== Sys2Proof/Machine/Dispatch.lean ====
section
/-! DEFINITION. One arm per instruction. -/

namespace Sys2Proof.Machine

def exec (i : Instr) (s : State) : Host.Outcome State Fault Refusal :=
  match i with
  | .write pa ra data => Sys2Proof.Machine.execWrite pa ra data s
  | .read pa ra ignored => Sys2Proof.Machine.execRead pa ra ignored s
  | .driveLow l => Sys2Proof.Machine.execDriveLow l s
  | .driveHigh l => Sys2Proof.Machine.execDriveHigh l s
  | .setInput l => Sys2Proof.Machine.execSetInput l s
  | .setOutput l => Sys2Proof.Machine.execSetOutput l s
  | .sample l => Sys2Proof.Machine.execSample l s

end Sys2Proof.Machine
end

