-- ==== Sys2Proof/Machine/Turns.lean ====
section
/-! DEFINITION. The steps of the machine (spec/42_transactions.md R90): one sequencer step (R91), one host action
(spec/10_state.md R29), or one act of the surroundings; and how the host's checks place an instruction. -/

namespace Sys2Proof.Machine

/-- What R91 does after the micro-op that took `s` to `t`: the contention check with the drive read at the start
of the step, the devices, `upc`, and completion (R102). -/
def finishUop (s t : State) : State :=
  let u := devicesAfter s t
  let u := raiseContentionIf (t.dirBit .mdio && s.devNow.isSome) u
  let u := { u with upc := u.upc + 1 }
  if u.upc = traceLen u.mode then complete u else u

/-- One sequencer step (R91). Not enabled in IDLE: nothing happens. Never enabled under MapFailed: stuck (R125,
93 I21; log entry 13). -/
def sequencerTurn (s : State) : Host.Outcome State Fault Refusal :=
  if !s.busy then .next s
  else if s.fault.mapFailed then .fault .mapFailedStuck
  else match s.nextUop with
    | none => .refused .noSuchMicroOp
    | some u =>
      match decodeUop u with
      | .error _ => .refused .reservedMicroOp
      | .ok i =>
        match exec i s with
        | .next t => .next (finishUop s t)
        | .fault f => .fault f
        | .refused r => .refused r

/-- Issue(C) (R94): a legal word runs its command; any other is IllegalCommand when BUSY = 0 (R105), and
CmdWhileBusy when BUSY = 1 (R106, R112). -/
def issueTurn (c : Word) (s : State) : Host.Outcome State Fault Refusal :=
  match decodeCmd c with
  | .ok i => exec i s
  | .error _ => .next (if s.busy then raiseCmdWhileBusy s else raiseIllegalCommand s)

/-- Inputs sampled in one cycle (R112): `reset` first, and the others are then dropped; then `abort`; then
Issue. -/
def sampledTurn (reset abort : Bool) (cmd : Option Word) (s : State) : Host.Outcome State Fault Refusal :=
  if reset then .next (resetAction s)
  else
    let s' := if abort then abortAction s else s
    match cmd with
    | none => .next s'
    | some c => issueTurn c s'

/-- One turn of the interleaving, any turn at any time (R114); `s` is the state with the turn taken off the
list. -/
def takeTurn (t : Turn) (s : State) : Host.Outcome State Fault Refusal :=
  match t with
  | .issue c => issueTurn c s
  | .abort => .next (abortAction s)
  | .reset => .next (resetAction s)
  | .readStatus => .next s
  | .sampled r a c => sampledTurn r a c s
  | .sequencer => sequencerTurn s
  | .wait => if s.busy then sequencerTurn { s with turns := .wait :: s.turns } else .next s
  | .otherAgent r w => outcome (otherAgentWrite r w s)
  | .terminate => .next (terminateAction s)

/-- The next turn; when the list is empty the outside does nothing more, and the sequencer moves (R93). -/
def nextTurn (s : State) : Host.Outcome State Fault Refusal :=
  match s.turns with
  | [] => takeTurn .sequencer s
  | t :: rest => takeTurn t { s with turns := rest }

/-! ### Placing an instruction (log entry 15) -/

/-- A trace position at which the sequencer performs a micro-op code, where a trace holds it (R103). -/
def uopPlace (u : BitVec 4) : Option (Mode × Nat) :=
  if u = drvL .mdc then some (.wr, 0)
  else if u = drvH .mdio then some (.wr, 1)
  else if u = setOut .mdc then some (.wr, 2)
  else if u = setOut .mdio then some (.wr, 3)
  else if u = drvH .mdc then some (.wr, 5)
  else if u = drvL .mdio then some (.wr, 100)
  else if u = setIn .mdio then some (.wr, 196)
  else if u = setIn .mdc then some (.wr, 197)
  else if u = smpL .mdio then some (.rd, 146)
  else none

/-- The command whose trace `placeUop` walks: PA, RA and data 0. -/
def placedCmd (m : Mode) : Cmd :=
  if m = .rd then ⟨opRead, 0#5, 0#5, none⟩ else ⟨opWrite, 0#5, 0#5, some 0#16⟩

/-- The sequencer put at a trace position, enabled, and given the next turn. -/
def placeUop (m : Mode) (n : Nat) (s : State) : State :=
  { s with
    mode := m, upc := n, cmd := some (placedCmd m), sr := some 0#16, apend := false
    fault := { s.fault with mapFailed := false }
    turns := .sequencer :: s.turns }

/-- The block made idle with both lines released, as after the reset release trace, and the command issued
next. -/
def placeCmd (c : Word) (s : State) : State :=
  { s with
    mode := .idle, upc := 0, apend := false
    dir := s.dir &&& ~~~ownMask s.params
    turns := .issue c :: s.turns }

end Sys2Proof.Machine
end

