-- ==== Sys2Proof/Machine/Step.lean ====
section
/-! DEFINITION. The step function (spec/42_transactions.md R90). -/

namespace Sys2Proof.Machine

/-- One step. A parameter set that R41 or R124 does not admit is refused: no step is taken (log entry 23). -/
def step (s : State) : Host.Outcome State Fault Refusal :=
  if s.params.wf then nextTurn s else .refused .badParameters

/-- `s` with the instruction whose bits are `w` where the next step takes it from (log entry 15): a command word
is what the host issues next, to an idle block; a micro-op code is where the sequencer stands in a trace. A code
that no trace holds leaves `s` as it is. -/
def State.withFetchWord (s : State) (nbits w : Nat) : State :=
  if nbits = 32 then placeCmd (BitVec.ofNat 32 w) s
  else if w < 16 then
    match uopPlace (BitVec.ofNat 4 w) with
    | some (m, n) => placeUop m n s
    | none => s
  else s

end Sys2Proof.Machine
end

