-- ==== Sys2Proof/Safety.lean ====
section
/-! DEFINITION. What claims about the machine are stated with: the idle invariant (spec/42_transactions.md R101), a
final state (spec/10_state.md R25), MDIO ownership (R98), and the invariants of the sequencer and of the
reference device. -/

namespace Sys2Proof.Machine

/-- Both lines are inputs (R101). -/
abbrev State.released (s : State) : Prop := s.dirBit .mdio = false ∧ s.dirBit .mdc = false

/-- A final state: nothing runs and no fault bit is set (R25, R113). -/
abbrev State.final (s : State) : Prop := s.mode = .idle ∧ s.fault = FaultSet.empty

/-- The host drives MDIO before the micro-op at `upc` is performed (R98). -/
def hostOwnsMdio (m : Mode) (n : Nat) : Bool :=
  match m with
  | .wr => decide (4 ≤ n ∧ n ≤ 196)
  | .rd => decide (4 ≤ n ∧ n ≤ 142)
  | .idle => false
  | .rst => false

/-- The latch of MDC is 1 before the micro-op at `upc`: between a rising and a falling edge (R96, R100). -/
def mdcHigh (m : Mode) (n : Nat) : Bool :=
  match m with
  | .wr => decide (4 ≤ n ∧ n ≤ 195 ∧ (n - 4) % 3 = 2)
  | .rd => decide (4 ≤ n ∧ n ≤ 144 ∧ (n - 4) % 3 = 2 ∨ 145 ≤ n ∧ n ≤ 192 ∧ (n - 145) % 3 ≠ 0)
  | .idle => false
  | .rst => false

/-- The bit the host put on MDIO last, before the micro-op at `upc` (2 ≤ upc): the idle level 1 of SETUP, then
the bit of the slot begun last; on a READ no slot after 45 (R27, R95, R99). -/
def lastHostBit (m : Mode) (c : Cmd) (n : Nat) : Option Bool :=
  if n < 5 then some true
  else match m with
    | .wr => writeBit c (min ((n - 5) / 3) 63)
    | .rd => readBit c (min ((n - 5) / 3) 45)
    | .idle => none
    | .rst => none

/-- How many data bits a WRITE has driven, or a READ has sampled, before the micro-op at `upc` (R85, R86). -/
def dataBitsDone (m : Mode) (n : Nat) : Nat :=
  match m with
  | .wr => min ((n - 146) / 3) 16
  | .rd => min ((n - 144) / 3) 16
  | .idle => 0
  | .rst => 0

/-- The lines in a running transaction, before the micro-op at `upc`, while no abort has cut the trace. -/
structure LineProfile (s : State) (c : Cmd) : Prop where
  mdcDir : s.dirBit .mdc = true ↔ 3 ≤ s.upc
  mdioDir : s.dirBit .mdio = hostOwnsMdio s.mode s.upc
  mdcLatch : 1 ≤ s.upc → s.outBit .mdc = mdcHigh s.mode s.upc
  mdioLatch : 2 ≤ s.upc → lastHostBit s.mode c s.upc = some (s.outBit .mdio)

/-- The invariant of the machine: what holds before and after every step. What it says of the lines is not
claimed from a process termination to the next Reset (R134). -/
structure Inv (s : State) : Prop where
  /-- The parameters are admitted (R41, R124). -/
  params : s.params.wf = true
  /-- `upc` is a position of the trace (R18). -/
  position : s.mode ≠ .idle → s.upc < traceLen s.mode
  idleUpc : s.mode = .idle → s.upc = 0
  /-- The latch holds the running command (R20, R94). -/
  writeCmd : s.mode = .wr → ∃ pa ra d, s.cmd = some ⟨opWrite, pa, ra, some d⟩ ∧
    (s.upc < 196 → s.sr = some (d <<< dataBitsDone .wr s.upc))
  readCmd : s.mode = .rd → ∃ pa ra, s.cmd = some ⟨opRead, pa, ra, none⟩
  /-- The shift register holds a value while a command runs (R21). -/
  shifter : s.mode = .wr ∨ s.mode = .rd → s.sr ≠ none
  /-- APEND is set only while a command runs (R24, R109). -/
  apendBusy : s.apend = true → s.mode = .wr ∨ s.mode = .rd
  /-- An abort has moved the sequencer past its limit (R109). -/
  apendPast : s.apend = true → abortLimit s.mode ≤ s.upc
  /-- RDV and ABORTED report a finished command, never both, and RDV a result that is there (R22, R24). -/
  rdvIdle : s.rdv = true → s.mode = .idle ∧ s.aborted = false ∧ s.rdata ≠ none
  abortedIdle : s.aborted = true → s.mode = .idle
  /-- Idle, the lines are released (R101). -/
  idleReleased : s.terminated = false → s.mode = .idle → s.released
  /-- Before the last release access MDIO is released already (R87, R123). -/
  releaseHalfDone : s.terminated = false → s.mode ≠ .idle → s.upc + 1 = traceLen s.mode →
    s.dirBit .mdio = false
  /-- The lines in the trace (R95, R98, R99), up to the release or all through it when no abort came. -/
  lines : s.terminated = false → ∀ c, s.cmd = some c → s.mode = .wr ∨ s.mode = .rd →
    s.upc + 2 < traceLen s.mode ∨ s.apend = false → LineProfile s c

/-- The reference device's bookkeeping (R104): its registers in canonical form, its buffer as long as its phase
allows, and a drive only in a read tail. -/
structure RefDevice.Ok (d : RefDevice) : Prop where
  regs : RegFile.wf d.regs = true
  framing : d.phase = .framing → d.buffer.length < 13 ∧ d.pos = d.buffer.length + 1
  writeTail : ∀ pa ra, d.phase = .writeTail pa ra → d.buffer.length < 18 ∧ d.pos = d.buffer.length + 14
  drive : d.drive ≠ none → ∃ pa ra, d.phase = .readTail pa ra ∧ pa ∈ d.present ∧ 16 ≤ d.pos

/-- The devices attached are in order; the oracle always is. -/
def State.devicesOk (s : State) : Prop := ∀ d, s.devices = .reference d → d.Ok

/-- The bits SAMPLE has put into HIST, oldest first (R26). -/
def sampledBits : List LineEvent → List Bool
  | [] => []
  | .sample b :: es => b :: sampledBits es
  | .rise :: es => sampledBits es
  | .fall :: es => sampledBits es
  | .drive _ :: es => sampledBits es
  | .take _ _ :: es => sampledBits es
  | .release _ :: es => sampledBits es

/-- `n` steps, stopping at the first fault or refusal. -/
def stepN : Nat → State → Host.Outcome State Fault Refusal
  | 0, s => .next s
  | n + 1, s =>
    match step s with
    | .next t => stepN n t
    | .fault f => .fault f
    | .refused r => .refused r

/-- The next step of `s` is a sequencer turn, taken in `s'`: it stands first in the list of turns, or the list
is empty. -/
def SequencerNext (s s' : State) : Prop :=
  s.params.wf = true ∧
    (s.turns = [] ∧ s' = s ∨ ∃ rest, s.turns = .sequencer :: rest ∧ s' = { s with turns := rest })

/-- The sequencer has the machine to itself: the parameters are admitted, the window is mapped, and the
outside does nothing more. -/
structure SequencerAlone (s : State) : Prop where
  params : s.params.wf = true
  mapped : s.fault.mapFailed = false
  turns : s.turns = []

/-- The edges of MDC in a list of events, in order. -/
def mdcEdges : List LineEvent → List LineEvent
  | [] => []
  | .rise :: es => .rise :: mdcEdges es
  | .fall :: es => .fall :: mdcEdges es
  | .drive _ :: es => mdcEdges es
  | .take _ _ :: es => mdcEdges es
  | .release _ :: es => mdcEdges es
  | .sample _ :: es => mdcEdges es

/-- `n` pulses: each rising edge followed by its falling edge (R97). -/
def pulses : Nat → List LineEvent
  | 0 => []
  | n + 1 => .rise :: .fall :: pulses n

/-- What the host drives on MDIO at each rising edge of MDC, from a list of events; `lvl` is what it drives
before them (R97). -/
def driveAtRises (lvl : Drive) : List LineEvent → List Drive
  | [] => []
  | .rise :: es => lvl :: driveAtRises lvl es
  | .fall :: es => driveAtRises lvl es
  | .drive b :: es => driveAtRises (some b) es
  | .take .mdio b :: es => driveAtRises (some b) es
  | .take .mdc _ :: es => driveAtRises lvl es
  | .release .mdio :: es => driveAtRises none es
  | .release .mdc :: es => driveAtRises lvl es
  | .sample _ :: es => driveAtRises lvl es

/-- The `n` low bits of a number, the most significant first (R39). -/
def bitsMsbFirst (n v : Nat) : List Bool :=
  match n with
  | 0 => []
  | k + 1 => v.testBit k :: bitsMsbFirst k v

/-- The shift register of a running READ holds the samples taken so far, MSB first (R86): it is made of the last
`dataBitsDone` samples of HIST. -/
def ReadShifterOk (s : State) : Prop :=
  s.mode = .rd → (s.upc < 193 ∨ s.apend = false) → ∃ taken older,
    sampledBits s.hist = older ++ taken ∧ taken.length = dataBitsDone .rd s.upc ∧
    s.sr = some (BitVec.ofNat 16 (msbFirst taken))

end Sys2Proof.Machine
end

