-- ==== Sys2Proof/Certificates/Slice0/Obligations.lean ====
section
/-! DEFINITION. What is claimed of the machine: one proposition per statement of OBLIGATIONS.json, each with the
rules of spec/ it formalises. -/

open Sys2Proof Sys2Proof.Machine

/-! ## Encodings -/

/-- R53, R62: decoding an encoded instruction gives it back, with every operand at every value. -/
def Obligations.DecodeOfEncodeIsTheInstruction : Prop :=
  ∀ i : Instr, i.wf = true → decode (encode i) = .ok i

/-- R53, R62: a word of either format that decodes is the encoding of what it decodes to. For a READ word this is
the model's choice, not the spec's: it holds because the ignored bits C[17:0] are kept in the instruction
(DESIGN CHOICE, log entry 21); R53 and R60 only call them ignored. -/
def Obligations.EncodeOfDecodeIsTheWord : Prop :=
  ∀ (w : InstrWord) (i : Instr), decode w = .ok i → encode i = w

/-- R53: a command word matches a row when `(C & mask) == match`; the fields are those of the layout; no other
word is a command. -/
def Obligations.CommandWordsAreTheTwoRows : Prop :=
  ∀ c : Word,
    (c &&& 0xF0030000#32 = 0x50020000#32 →
      decodeCmd c = .ok (.write (c.extractLsb' 23 5) (c.extractLsb' 18 5) (c.extractLsb' 0 16))) ∧
    (c &&& 0xF0000000#32 = 0x60000000#32 →
      decodeCmd c = .ok (.read (c.extractLsb' 23 5) (c.extractLsb' 18 5) (c.extractLsb' 0 18))) ∧
    (c &&& 0xF0030000#32 ≠ 0x50020000#32 → c &&& 0xF0000000#32 ≠ 0x60000000#32 →
      ∃ e, decodeCmd c = .error e)

/-- Words of spec/95_test_vectors.md, section 2.1, and what they stand for. -/
def Obligations.WordsOfTheSpecDecode : Prop :=
  decode (.cmd32 0x50821140#32) = .ok (.write 1 0 0x1140) ∧
  decode (.cmd32 0x5FFEFFFF#32) = .ok (.write 31 31 0xFFFF) ∧
  decode (.cmd32 0x6C0C0000#32) = .ok (.read 0x18 3 0) ∧
  decode (.cmd32 0x50030000#32) = .error .badTurnaround ∧
  decode (.cmd32 0x70000000#32) = .error .badOpcode ∧
  decode (.cmd32 0x90000000#32) = .error .badStart ∧
  decode (.uop4 0x1#4) = .ok (.driveLow .mdc) ∧
  decode (.uop4 0x2#4) = .ok (.driveHigh .mdio) ∧
  decode (.uop4 0x5#4) = .ok (.setInput .mdc) ∧
  decode (.uop4 0x6#4) = .ok (.setOutput .mdio) ∧
  decode (.uop4 0x8#4) = .ok (.sample .mdio) ∧
  decode (.uop4 0xA#4) = .error .reservedKind

/-- R54, host encoder: operands in range give a word that decodes to the command with exactly them; operands out
of range are refused, never truncated. -/
def Obligations.HostEncoderRefusesAndNeverTruncates : Prop :=
  (∀ pa ra data : Nat, pa < 32 → ra < 32 → data < 65536 →
    ∃ w, hostWriteWord pa ra data = some w ∧
      decodeCmd w = .ok (.write (BitVec.ofNat 5 pa) (BitVec.ofNat 5 ra) (BitVec.ofNat 16 data))) ∧
  (∀ pa ra : Nat, pa < 32 → ra < 32 →
    ∃ w, hostReadWord pa ra = some w ∧
      decodeCmd w = .ok (.read (BitVec.ofNat 5 pa) (BitVec.ofNat 5 ra) 0)) ∧
  (∀ pa ra data : Nat, 32 ≤ pa ∨ 32 ≤ ra ∨ 65536 ≤ data → hostWriteWord pa ra data = none) ∧
  (∀ pa ra : Nat, 32 ≤ pa ∨ 32 ≤ ra → hostReadWord pa ra = none)

/-- R57: the header of a WRITE is `0x1400 | pa << 5 | ra`, of a READ `0x1800 | pa << 5 | ra`; it is C[31:18] of
the command word, and slots 32 to 45 carry it MSB first. -/
def Obligations.HeaderIsTheCommandsUpperBits : Prop :=
  (∀ (pa ra : Addr5) (x : Option Half),
    header ⟨opWrite, pa, ra, x⟩ = 0x1400#14 ||| (pa.setWidth 14 <<< 5) ||| ra.setWidth 14 ∧
    header ⟨opRead, pa, ra, x⟩ = 0x1800#14 ||| (pa.setWidth 14 <<< 5) ||| ra.setWidth 14) ∧
  (∀ (pa ra : Addr5) (d : Half) (c : Word), encode (.write pa ra d) = .cmd32 c →
    header ⟨opWrite, pa, ra, some d⟩ = c.extractLsb' 18 14) ∧
  (∀ (pa ra : Addr5) (x : BitVec 18) (c : Word), encode (.read pa ra x) = .cmd32 c →
    header ⟨opRead, pa, ra, none⟩ = c.extractLsb' 18 14) ∧
  (∀ (c : Cmd) (k : Nat), 32 ≤ k → k ≤ 45 →
    writeBit c k = some ((header c).getLsbD (45 - k)) ∧ readBit c k = some ((header c).getLsbD (45 - k))) ∧
  header ⟨opRead, 0x18, 0x03, none⟩ = 0x1B03#14

/-! ## Traces -/

/-- R95 with R55: the WRITE trace, micro-op by micro-op, from the command word `c`. -/
def Obligations.WriteTraceFollowsTheCommandWord : Prop :=
  ∀ (pa ra : Addr5) (d : Half) (c : Word), encode (.write pa ra d) = .cmd32 c →
    let tr := trace .wr (some ⟨opWrite, pa, ra, some d⟩)
    tr 0 = some 0x1#4 ∧ tr 1 = some 0x2#4 ∧ tr 2 = some 0x7#4 ∧ tr 3 = some 0x6#4 ∧
    (∀ k, k < 64 →
      tr (4 + 3 * k) = some (if k < 32 ∨ c.getLsbD (63 - k) = true then 0x2#4 else 0x0#4) ∧
      tr (5 + 3 * k) = some 0x3#4 ∧ tr (6 + 3 * k) = some 0x1#4) ∧
    tr 196 = some 0x4#4 ∧ tr 197 = some 0x5#4 ∧ ∀ n, 198 ≤ n → tr n = none

/-- R99 with R56 and R57: the READ trace, micro-op by micro-op, from the header `h`. -/
def Obligations.ReadTraceFollowsTheHeader : Prop :=
  ∀ (pa ra : Addr5) (h : BitVec 14), h = 0x1800#14 ||| (pa.setWidth 14 <<< 5) ||| ra.setWidth 14 →
    let tr := trace .rd (some ⟨opRead, pa, ra, none⟩)
    tr 0 = some 0x1#4 ∧ tr 1 = some 0x2#4 ∧ tr 2 = some 0x7#4 ∧ tr 3 = some 0x6#4 ∧
    (∀ k, k < 46 →
      tr (4 + 3 * k) = some (if k < 32 ∨ h.getLsbD (45 - k) = true then 0x2#4 else 0x0#4) ∧
      tr (5 + 3 * k) = some 0x3#4 ∧ tr (6 + 3 * k) = some 0x1#4) ∧
    tr 142 = some 0x4#4 ∧ tr 143 = some 0x3#4 ∧ tr 144 = some 0x1#4 ∧
    (∀ j, j < 16 →
      tr (145 + 3 * j) = some 0x3#4 ∧ tr (146 + 3 * j) = some 0x8#4 ∧ tr (147 + 3 * j) = some 0x1#4) ∧
    tr 193 = some 0x4#4 ∧ tr 194 = some 0x5#4 ∧ ∀ n, 195 ≤ n → tr n = none

/-- R63, R103: no trace of any command holds a reserved code (0xA to 0xF) or SAMPLE MDC (0x9), or is longer than
R18 says; the RST trace is `SETIN MDIO; SETIN MDC`. -/
def Obligations.TracesHoldOnlyAdmittedMicroOps : Prop :=
  (∀ (m : Mode) (c : Option Cmd) (n : Nat) (u : BitVec 4), trace m c n = some u →
    u.toNat ≤ 8 ∧ m ≠ .idle ∧ n < traceLen m ∧
    (m = .rst → n = 0 ∧ u = 0x4#4 ∨ n = 1 ∧ u = 0x5#4)) ∧
  (∀ c : Option Cmd, trace .rst c 0 = some 0x4#4 ∧ trace .rst c 1 = some 0x5#4)

/-- R96, R100: which slots each phase covers, and which positions have none. -/
def Obligations.SlotsLieInTheirPhases : Prop :=
  (∀ n k, slotOf .wr n = some k → k = (n - 4) / 3 ∧ phaseOf .wr n = some
    (if k < 32 then .preamble else if k < 34 then .start else if k < 36 then .opcode else if k < 41 then .phyad
      else if k < 46 then .regad else if k < 48 then .ta else .data)) ∧
  (∀ n k, slotOf .rd n = some k → k = (n - 4) / 3 ∧ phaseOf .rd n = some
    (if k < 32 then .preamble else if k < 34 then .start else if k < 36 then .opcode else if k < 41 then .phyad
      else if k < 46 then .regad else if k < 47 then .ta else .data)) ∧
  (∀ n, n < 198 → (slotOf .wr n = none ↔ phaseOf .wr n = some .setup ∨ phaseOf .wr n = some .release)) ∧
  (∀ n, n < 195 → (slotOf .rd n = none ↔ phaseOf .rd n = some .setup ∨ phaseOf .rd n = some .release))

/-! ## Bus Driver micro-ops -/

/-- R69: DRIVE_HIGH. -/
def Obligations.DriveHighSetsTheLatch : Prop :=
  decodeUop 0x2#4 = .ok (.driveHigh .mdio) ∧ decodeUop 0x3#4 = .ok (.driveHigh .mdc) ∧
  ∀ (s : State) (l : Line), s.params.wf = true →
    ∃ t, exec (.driveHigh l) s = .next t ∧
      t.out = s.out ||| (1#32 <<< (s.params.bitOf l).val) ∧ t.dir = s.dir ∧ t.outBit l = true ∧
      t.port = s.port ++
        [.write (s.params.gpioBase + s.params.offOutSet) (1#32 <<< (s.params.bitOf l).val)] ∧
      t.rdv = s.rdv ∧ t.aborted = s.aborted ∧ t.apend = s.apend ∧ t.fault = s.fault ∧ t.mode = s.mode ∧
      t.hist = s.hist ++ lineEvents l (s.drv l) (t.drv l) ∧
      (s.dirBit l = false → t.hist = s.hist) ∧
      (s.outBit l = true → t.out = s.out ∧ t.hist = s.hist) ∧
      (l = .mdc → s.dirBit l = true → s.outBit l = false → t.hist = s.hist ++ [.rise])

/-- R70: DRIVE_LOW. -/
def Obligations.DriveLowClearsTheLatch : Prop :=
  decodeUop 0x0#4 = .ok (.driveLow .mdio) ∧ decodeUop 0x1#4 = .ok (.driveLow .mdc) ∧
  ∀ (s : State) (l : Line), s.params.wf = true →
    ∃ t, exec (.driveLow l) s = .next t ∧
      t.out = s.out &&& ~~~(1#32 <<< (s.params.bitOf l).val) ∧ t.dir = s.dir ∧ t.outBit l = false ∧
      t.port = s.port ++
        [.write (s.params.gpioBase + s.params.offOutClr) (1#32 <<< (s.params.bitOf l).val)] ∧
      t.rdv = s.rdv ∧ t.aborted = s.aborted ∧ t.apend = s.apend ∧ t.fault = s.fault ∧ t.mode = s.mode ∧
      t.hist = s.hist ++ lineEvents l (s.drv l) (t.drv l) ∧
      (s.dirBit l = false → t.hist = s.hist) ∧
      (s.outBit l = false → t.out = s.out ∧ t.hist = s.hist) ∧
      (l = .mdc → s.dirBit l = true → s.outBit l = true → t.hist = s.hist ++ [.fall]) ∧
      (l = .mdio → s.dirBit l = true → s.outBit l = true → t.hist = s.hist ++ [.drive false])

/-- R73: SET_OUTPUT. -/
def Obligations.SetOutputTakesTheLine : Prop :=
  decodeUop 0x6#4 = .ok (.setOutput .mdio) ∧ decodeUop 0x7#4 = .ok (.setOutput .mdc) ∧
  ∀ (s : State) (l : Line), s.params.wf = true →
    ∃ t, exec (.setOutput l) s = .next t ∧
      t.dir = s.dir ||| (1#32 <<< (s.params.bitOf l).val) ∧ t.out = s.out ∧ t.drv l = some (s.outBit l) ∧
      t.port = s.port ++
        [.write (s.params.gpioBase + s.params.offDirSet) (1#32 <<< (s.params.bitOf l).val)] ∧
      t.rdv = s.rdv ∧ t.aborted = s.aborted ∧ t.apend = s.apend ∧ t.fault = s.fault ∧ t.mode = s.mode ∧
      (s.dirBit l = false → t.hist = s.hist ++ [.take l (s.outBit l)]) ∧
      (s.dirBit l = true → t.dir = s.dir ∧ t.hist = s.hist)

/-- R74: SET_INPUT. -/
def Obligations.SetInputReleasesTheLine : Prop :=
  decodeUop 0x4#4 = .ok (.setInput .mdio) ∧ decodeUop 0x5#4 = .ok (.setInput .mdc) ∧
  ∀ (s : State) (l : Line), s.params.wf = true →
    ∃ t, exec (.setInput l) s = .next t ∧
      t.dir = s.dir &&& ~~~(1#32 <<< (s.params.bitOf l).val) ∧ t.out = s.out ∧ t.drv l = none ∧
      t.port = s.port ++
        [.write (s.params.gpioBase + s.params.offDirClr) (1#32 <<< (s.params.bitOf l).val)] ∧
      t.rdv = s.rdv ∧ t.aborted = s.aborted ∧ t.apend = s.apend ∧ t.fault = s.fault ∧ t.mode = s.mode ∧
      (s.dirBit l = true → t.hist = s.hist ++ [.release l]) ∧
      (s.dirBit l = false → t.dir = s.dir ∧ t.hist = s.hist)

/-- R75: SAMPLE completes in every state with one read of IN and one Sample event; while the line is an input
whose level is known, the sampled bit is that level. What it samples on a line the host drives is a free value
(R16, 93 I5; log entry 7). -/
def Obligations.SampleReadsTheWire : Prop :=
  decodeUop 0x8#4 = .ok (.sample .mdio) ∧ decodeUop 0x9#4 = .ok (.sample .mdc) ∧
  ∀ (s : State) (l : Line), s.params.wf = true →
    ∃ t b, exec (.sample l) s = .next t ∧
      t.port = s.port ++ [.read (s.params.gpioBase + s.params.offIn)] ∧
      t.hist = s.hist ++ [.sample b] ∧
      (∀ v, s.dirBit l = false → s.wire l = some v → b = v)

/-- R14, R15, R68, R69, R70, R73, R74: the frame of the four line operations. Devices' registers are in
`devices`; the shift register moves only at a data-out bit (R85, R91). -/
def Obligations.LineOperationsLeaveTheRest : Prop :=
  ∀ (s t : State) (l : Line) (i : Instr), s.params.wf = true →
    i = .driveLow l ∨ i = .driveHigh l ∨ i = .setInput l ∨ i = .setOutput l → exec i s = .next t →
      t.params = s.params ∧ t.mode = s.mode ∧ t.upc = s.upc ∧ t.cmd = s.cmd ∧ t.rdata = s.rdata ∧
      t.rdv = s.rdv ∧ t.aborted = s.aborted ∧ t.apend = s.apend ∧ t.fault = s.fault ∧
      t.devices = s.devices ∧ t.draws = s.draws ∧ t.turns = s.turns ∧ t.terminated = s.terminated ∧
      (i = .driveLow l ∨ i = .driveHigh l → t.dir = s.dir) ∧
      (i = .setInput l ∨ i = .setOutput l → t.out = s.out ∧ t.sr = s.sr) ∧
      (∀ k, k ≠ (s.params.bitOf l).val →
        t.dir.getLsbD k = s.dir.getLsbD k ∧ t.out.getLsbD k = s.out.getLsbD k) ∧
      (¬(l = .mdio ∧ s.atDataOut = true) → t.sr = s.sr) ∧
      (∃ es, es.length ≤ 1 ∧ t.hist = s.hist ++ es) ∧
      (∃ a w, t.port = s.port ++ [.write a w])

/-- R43, R75: the frame of SAMPLE: no latch, no flag, no device changes; the shift register only at a data-in
sample (R86). -/
def Obligations.SampleLeavesTheRest : Prop :=
  ∀ (s t : State) (l : Line), exec (.sample l) s = .next t →
    t.params = s.params ∧ t.dir = s.dir ∧ t.out = s.out ∧ t.mode = s.mode ∧ t.upc = s.upc ∧ t.cmd = s.cmd ∧
    t.rdata = s.rdata ∧ t.rdv = s.rdv ∧ t.aborted = s.aborted ∧ t.apend = s.apend ∧ t.fault = s.fault ∧
    t.devices = s.devices ∧ t.turns = s.turns ∧ t.terminated = s.terminated ∧
    (s.atDataIn = false → t.sr = s.sr) ∧ (∃ b, t.hist = s.hist ++ [.sample b]) ∧
    (∃ a, t.port = s.port ++ [.read a])

/-- R71: the host-side drive of a line, and the event each line operation appends to HIST. -/
def Obligations.EachLineOperationEmitsItsEvent : Prop :=
  (∀ (s : State) (l : Line), s.drv l = if s.dirBit l then some (s.outBit l) else none) ∧
  ∀ (s t : State) (l : Line) (i : Instr), s.params.wf = true →
    i = .driveLow l ∨ i = .driveHigh l ∨ i = .setInput l ∨ i = .setOutput l → exec i s = .next t →
    ∃ es, t.hist = s.hist ++ es ∧ (∀ l', l' ≠ l → t.drv l' = s.drv l') ∧
      (t.drv l = s.drv l → es = []) ∧
      (∀ b, s.drv l = none → t.drv l = some b → es = [.take l b]) ∧
      (∀ a, s.drv l = some a → t.drv l = none → es = [.release l]) ∧
      (l = .mdc → s.drv l = some false → t.drv l = some true → es = [.rise]) ∧
      (l = .mdc → s.drv l = some true → t.drv l = some false → es = [.fall]) ∧
      (∀ b, l = .mdio → s.drv l = some (!b) → t.drv l = some b → es = [.drive b])

/-- R72: what each line's level is; `none` is the spec's draw. The fault of the last case is in
SequencerStepSettles. -/
def Obligations.WireResolution : Prop :=
  ∀ s : State,
    (s.dirBit .mdc = true → s.wire .mdc = some (s.outBit .mdc)) ∧
    (s.dirBit .mdc = false → s.wire .mdc = s.params.mdcIdle) ∧
    (s.dirBit .mdio = true → s.devNow = none → s.wire .mdio = some (s.outBit .mdio)) ∧
    (∀ b, s.dirBit .mdio = false → s.devNow = some b → s.wire .mdio = some b) ∧
    (s.dirBit .mdio = false → s.devNow = none → s.wire .mdio = s.params.mdioIdle) ∧
    (s.dirBit .mdio = true → s.devNow ≠ none → s.wire .mdio = none)

/-! ## Commands -/

/-- R94, R105, R106: Issue(C), whole. -/
def Obligations.IssueAcceptsOrRaises : Prop :=
  ∀ (s : State) (c : Word) (rest : List Turn), s.params.wf = true → s.turns = .issue c :: rest →
    (s.mode ≠ .idle →
      step s = .next { s with turns := rest, fault := { s.fault with cmdWhileBusy := true } }) ∧
    (s.mode = .idle → c &&& 0xF0030000#32 ≠ 0x50020000#32 → c &&& 0xF0000000#32 ≠ 0x60000000#32 →
      step s = .next { s with turns := rest, fault := { s.fault with illegalCommand := true } }) ∧
    (s.mode = .idle → c &&& 0xF0030000#32 = 0x50020000#32 →
      step s = .next { s with
        turns := rest
        cmd := some ⟨c.extractLsb' 28 2, c.extractLsb' 23 5, c.extractLsb' 18 5, some (c.extractLsb' 0 16)⟩
        sr := some (c.extractLsb' 0 16), mode := .wr, upc := 0, rdv := false, aborted := false
        apend := false }) ∧
    (s.mode = .idle → c &&& 0xF0000000#32 = 0x60000000#32 →
      step s = .next { s with
        turns := rest
        cmd := some ⟨c.extractLsb' 28 2, c.extractLsb' 23 5, c.extractLsb' 18 5, none⟩
        sr := some 0#16, mode := .rd, upc := 0, rdv := false, aborted := false, apend := false })

/-- R94, R106 for the two instructions: an idle block accepts, and nothing else of the state changes; a busy one
raises CmdWhileBusy, and nothing else changes. -/
def Obligations.CommandsExecuteWhole : Prop :=
  ∀ (s : State) (pa ra : Addr5) (d : Half) (x : BitVec 18),
    (s.mode = .idle →
      exec (.write pa ra d) s = .next { s with
        cmd := some ⟨0b01#2, pa, ra, some d⟩, sr := some d, mode := .wr, upc := 0
        rdv := false, aborted := false, apend := false } ∧
      exec (.read pa ra x) s = .next { s with
        cmd := some ⟨0b10#2, pa, ra, none⟩, sr := some 0#16, mode := .rd, upc := 0
        rdv := false, aborted := false, apend := false }) ∧
    (s.mode ≠ .idle →
      exec (.write pa ra d) s = .next { s with fault := { s.fault with cmdWhileBusy := true } } ∧
      exec (.read pa ra x) s = .next { s with fault := { s.fault with cmdWhileBusy := true } })

/-- R60: in a READ word the bits C[17:0] have no effect: two READ words that differ only there do the same. -/
def Obligations.IgnoredBitsOfAReadHaveNoEffect : Prop :=
  ∀ (s : State) (c c' : Word) (rest : List Turn), c &&& 0xF0000000#32 = 0x60000000#32 →
    c.extractLsb' 18 14 = c'.extractLsb' 18 14 →
    step { s with turns := .issue c :: rest } = step { s with turns := .issue c' :: rest }

/-! ## Steps -/

/-- A step runs the decoded command (R94, R90): the step of an Issue is exec of the word's instruction, with the
turn taken off the list. -/
def Obligations.StepRunsTheIssuedCommand : Prop :=
  ∀ (s : State) (c : Word) (rest : List Turn) (i : Instr), s.params.wf = true →
    s.turns = .issue c :: rest → decodeCmd c = .ok i → step s = exec i { s with turns := rest }

/-- A step runs the decoded micro-op (R91): an enabled sequencer step is exec of the micro-op the trace holds at
`upc`, and then what `finishUop` does (SequencerStepSettles). -/
def Obligations.StepRunsTheTracesMicroOp : Prop :=
  ∀ (s s' : State) (u : BitVec 4) (i : Instr), SequencerNext s s' → s.mode ≠ .idle →
    s.fault.mapFailed = false → trace s.mode s.cmd s.upc = some u → decodeUop u = .ok i →
    ∃ t, exec i s' = .next t ∧ step s = .next (finishUop s' t)

/-- R91, R72, R18: after the micro-op took `s` to `t`, Contention is raised when MDIO is an output and a device
drives it; `upc` advances by one; at the end of the trace the command completes. -/
def Obligations.SequencerStepSettles : Prop :=
  ∀ s t : State,
    (finishUop s t).fault =
      { t.fault with contention := t.fault.contention || (t.dirBit .mdio && decide (s.devNow ≠ none)) } ∧
    (finishUop s t).params = t.params ∧ (finishUop s t).dir = t.dir ∧ (finishUop s t).out = t.out ∧
    (finishUop s t).cmd = t.cmd ∧ (finishUop s t).sr = t.sr ∧ (finishUop s t).hist = t.hist ∧
    (finishUop s t).port = t.port ∧ (finishUop s t).turns = t.turns ∧
    (finishUop s t).terminated = t.terminated ∧
    (t.upc + 1 ≠ traceLen t.mode →
      (finishUop s t).upc = t.upc + 1 ∧ (finishUop s t).mode = t.mode ∧ (finishUop s t).rdata = t.rdata ∧
      (finishUop s t).rdv = t.rdv ∧ (finishUop s t).aborted = t.aborted ∧ (finishUop s t).apend = t.apend) ∧
    (t.upc + 1 = traceLen t.mode →
      (finishUop s t).mode = .idle ∧ (finishUop s t).upc = 0 ∧ (finishUop s t).apend = false)

/-- R92: one answer of the oracle is used up by each sequencer step, and no step of the host uses one. -/
def Obligations.OracleAnswersOneSequencerStepEach : Prop :=
  (∀ (s s' t : State) (a : Drive) (rest : List Drive), SequencerNext s s' → s.mode ≠ .idle →
    s.devices = .oracle (a :: rest) → step s = .next t →
    s'.devNow = a ∧ t.devices = .oracle rest) ∧
  (∀ (s t : State) (x : Turn) (rest : List Turn), s.turns = x :: rest → x ≠ .sequencer → x ≠ .wait →
    step s = .next t → t.devices = s.devices)

/-- R102: completion, in the same step as the last micro-op of the trace, with that micro-op's one access. -/
def Obligations.LastMicroOpCompletes : Prop :=
  ∀ s s' : State, SequencerNext s s' → s.mode ≠ .idle → s.fault.mapFailed = false →
    s.mode = .rst ∨ s.cmd ≠ none → s.upc + 1 = traceLen s.mode →
    ∃ t, step s = .next t ∧ t.mode = .idle ∧ t.upc = 0 ∧ t.apend = false ∧
      t.port.length = s.port.length + 1 ∧
      (s.mode = .rd → s.apend = false → t.rdata = s.sr ∧ t.rdv = true ∧ t.aborted = s.aborted) ∧
      (s.mode = .wr → s.apend = false → t.rdata = s.rdata ∧ t.rdv = s.rdv ∧ t.aborted = s.aborted) ∧
      (s.mode = .wr ∨ s.mode = .rd → s.apend = true →
        t.aborted = true ∧ t.rdata = s.rdata ∧ t.rdv = s.rdv) ∧
      (s.mode = .rst → t.rdata = s.rdata ∧ t.rdv = s.rdv ∧ t.aborted = s.aborted)

/-- R78, R130: SETUP, from released lines and whatever the latches hold: MDC is taken low and MDIO high, with no
pulse. -/
def Obligations.SetupTakesBothLines : Prop :=
  ∀ s : State, SequencerAlone s → s.mode = .wr ∨ s.mode = .rd → s.cmd ≠ none → s.upc = 0 → s.released →
    ∃ t, stepN 4 s = .next t ∧ t.upc = 4 ∧ t.mode = s.mode ∧ t.cmd = s.cmd ∧
      t.hist = s.hist ++ [.take .mdc false, .take .mdio true] ∧
      t.drv .mdc = some false ∧ t.drv .mdio = some true ∧ t.port.length = s.port.length + 4

/-- R79: BIT(b), in every host-driven slot of both frames: MDIO set, a rising edge, a falling edge. -/
def Obligations.SerializerCellClocksOneBit : Prop :=
  ∀ (s : State) (c : Cmd) (k : Nat) (b : Bool), SequencerAlone s → s.cmd = some c → s.upc = 4 + 3 * k →
    s.mode = .wr ∧ k < 64 ∧ writeBit c k = some b ∨ s.mode = .rd ∧ k < 46 ∧ readBit c k = some b →
    s.dirBit .mdio = true → s.dirBit .mdc = true → s.outBit .mdc = false →
    ∃ t, stepN 3 s = .next t ∧ t.upc = s.upc + 3 ∧ t.mode = s.mode ∧ t.cmd = s.cmd ∧
      t.hist = s.hist ++ (if s.outBit .mdio = b then [] else [.drive b]) ++ [.rise, .fall] ∧
      t.dirBit .mdio = true ∧ t.dirBit .mdc = true ∧ t.outBit .mdio = b ∧ t.outBit .mdc = false ∧
      t.port.length = s.port.length + 3

/-- R85: at data bit `j` of a WRITE the block drives SR[15], which is wdata[15 - j], and then shifts SR left by
one; CMD stays; after the 16th bit SR is 0. -/
def Obligations.DataOutDrivesTheShifter : Prop :=
  (∀ (s : State) (c : Cmd) (d : Half) (j : Nat), Inv s → s.mode = .wr → s.cmd = some c → c.wdata = some d →
    s.upc = 148 + 3 * j → j < 16 →
    ∃ v i t, s.sr = some v ∧ v.getLsbD 15 = d.getLsbD (15 - j) ∧
      i = (if v.getLsbD 15 then Instr.driveHigh .mdio else .driveLow .mdio) ∧
      (s.nextUop.map decodeUop = some (.ok i)) ∧
      exec i s = .next t ∧ t.sr = some (v <<< 1) ∧ t.cmd = s.cmd) ∧
  (∀ s : State, Inv s → s.mode = .wr → s.upc = 195 → s.sr = some 0#16)

/-- R86: at data bit `j` of a READ the sampled bit enters SR at bit 0 as SR shifts left by one. -/
def Obligations.DataInFillsTheShifter : Prop :=
  ∀ (s : State) (v : Half) (j : Nat), s.params.wf = true → s.mode = .rd → s.upc = 146 + 3 * j → j < 16 →
    s.sr = some v →
    ∃ t b, exec (.sample .mdio) s = .next t ∧ t.hist = s.hist ++ [.sample b] ∧
      t.sr = some (v <<< 1 ||| (if b then 1#16 else 0#16))

/-! ## Abort, reset, faults -/

/-- R101: after any completion both lines are inputs; R134 takes the time from a process termination to the next
Reset out of it. -/
def Obligations.CompletionLeavesBothLinesReleased : Prop :=
  ∀ s t : State, Inv s → s.terminated = false → step s = .next t → s.mode ≠ .idle → t.mode = .idle → t.released

/-- R109: the three cases of Abort. -/
def Obligations.AbortJumpsToTheRelease : Prop :=
  ∀ (s : State) (rest : List Turn), s.params.wf = true → s.turns = .abort :: rest →
    (s.mode = .wr →
      step s = .next { s with turns := rest, apend := true, upc := if s.upc < 196 then 196 else s.upc }) ∧
    (s.mode = .rd →
      step s = .next { s with turns := rest, apend := true, upc := if s.upc < 142 then 193 else s.upc }) ∧
    (s.mode = .idle ∨ s.mode = .rst → step s = .next { s with turns := rest })

/-- R110: an aborted command completes with ABORTED = 1, RDV = 0 and RDATA unchanged; a second Abort while
APEND = 1 has no further effect. The lines end released but after a process termination (R134). -/
def Obligations.AbortedCommandReportsAborted : Prop :=
  (∀ s : State, Inv s → SequencerAlone s → s.apend = true →
    ∃ t, stepN (traceLen s.mode - s.upc) s = .next t ∧ t.mode = .idle ∧ t.aborted = true ∧ t.rdv = false ∧
      t.rdata = s.rdata ∧ (s.terminated = false → t.released)) ∧
  (∀ (s : State) (rest : List Turn), Inv s → s.apend = true →
    s.turns = .abort :: rest → step s = .next { s with turns := rest })

/-- R93: left to the sequencer, whatever runs completes in exactly the micro-ops its trace still has, and
reports what R102 says; the lines end released but after a process termination (R134). -/
def Obligations.EveryTraceCompletes : Prop :=
  ∀ s : State, Inv s → SequencerAlone s → s.mode ≠ .idle →
    ∃ t, stepN (traceLen s.mode - s.upc) s = .next t ∧ t.mode = .idle ∧
      (s.terminated = false → t.released) ∧ t.turns = [] ∧ t.apend = false ∧ t.aborted = s.apend ∧ t.rdv = (decide (s.mode = .rd) && !s.apend) ∧
      t.port.length = s.port.length + (traceLen s.mode - s.upc)

/-- R122: the reset action, at once whatever the block was doing; DIR, OUT and FAULT (R121) stay. -/
def Obligations.ResetStartsTheReleaseTrace : Prop :=
  ∀ (s : State) (rest : List Turn), s.params.wf = true → s.turns = .reset :: rest →
    ∃ t, step s = .next t ∧ t.mode = .rst ∧ t.upc = 0 ∧ t.cmd = none ∧ t.sr = none ∧ t.rdata = none ∧
      t.rdv = false ∧ t.aborted = false ∧ t.apend = false ∧ t.dir = s.dir ∧ t.out = s.out ∧
      t.fault = s.fault ∧ t.turns = rest

/-- R123: the reset release trace: two steps, BUSY until the second, then both lines inputs and the latches as
they were. -/
def Obligations.ReleaseTraceLeavesTheBlockIdle : Prop :=
  ∀ s : State, SequencerAlone s → s.mode = .rst → s.upc = 0 →
    ∃ m t, step s = .next m ∧ m.busy = true ∧ m.dirBit .mdio = false ∧
      step m = .next t ∧ t.mode = .idle ∧ t.busy = false ∧ t.upc = 0 ∧ t.released ∧ t.out = s.out

/-- R30, R25, R125: what power on leaves, for every parameter set, every content of the latches, all devices:
the values of R30's table. -/
def Obligations.PowerOnValues : Prop :=
  ∀ (p : Params) (mapped : Bool) (dir out : Word) (devices : Devices) (turns : List Turn) (s : State),
    s = State.launch p mapped dir out devices turns →
    s.mode = .rst ∧ s.upc = 0 ∧ s.cmd = none ∧ s.sr = none ∧ s.rdata = none ∧ s.status.busy = true ∧
    s.rdv = false ∧ s.aborted = false ∧ s.apend = false ∧ s.hist = [] ∧ s.dir = dir ∧ s.out = out ∧
    (mapped = true → s.fault.code = 0#4) ∧ (mapped = false → s.fault.code = 0b1000#4)

/-- R125: under MapFailed the block stays in RST with BUSY = 1 for ever, and every Issue raises CmdWhileBusy. That
a sequencer turn then stops the model is the model's reading of 93 I21 (log entry 13). -/
def Obligations.MapFailureNeverEnds : Prop :=
  (∀ s t : State, s.fault.mapFailed = true → s.mode = .rst → step s = .next t →
    t.fault.mapFailed = true ∧ t.mode = .rst ∧ t.busy = true ∧ ¬ t.final) ∧
  (∀ (s : State) (c : Word) (rest : List Turn), s.params.wf = true →
    s.fault.mapFailed = true → s.mode = .rst → s.turns = .issue c :: rest →
    ∃ t, step s = .next t ∧ t.fault.cmdWhileBusy = true) ∧
  (∀ s s' : State, SequencerNext s s' → s.fault.mapFailed = true → s.mode = .rst →
    step s = .fault .mapFailedStuck)

/-- R25: a fault bit, once set, is never cleared, and a state with one is never final. -/
def Obligations.FaultBitsAreSticky : Prop :=
  (∀ s t : State, step s = .next t →
    (s.fault.illegalCommand = true → t.fault.illegalCommand = true) ∧
    (s.fault.cmdWhileBusy = true → t.fault.cmdWhileBusy = true) ∧
    (s.fault.contention = true → t.fault.contention = true) ∧
    (s.fault.mapFailed = true → t.fault.mapFailed = true)) ∧
  (∀ s : State, s.fault.code ≠ 0#4 → ¬ s.final)

/-! ## Invariants -/

/-- Every step keeps the invariant of the sequencer (R18, R20, R21, R24, R98, R101, R109). -/
def Obligations.EveryStepKeepsTheInvariant : Prop :=
  ∀ s t : State, Inv s → step s = .next t → Inv t

/-- The invariant holds at power on, whatever the latches hold and whoever is outside, and so in
`State.reset`. -/
def Obligations.InvariantHoldsAtPowerOn : Prop :=
  (∀ (p : Params) (mapped : Bool) (dir out : Word) (devices : Devices) (turns : List Turn), p.wf = true →
    Inv (State.launch p mapped dir out devices turns)) ∧
  Inv State.reset ∧ State.reset.devicesOk ∧ ReadShifterOk State.reset

/-- R104: every step keeps the reference device in order: its registers in canonical form, its buffer within its
phase, and a drive on MDIO only in a read tail of an address it holds. -/
def Obligations.EveryStepKeepsTheDeviceInOrder : Prop :=
  ∀ s t : State, s.devicesOk → step s = .next t → t.devicesOk

/-- R86: every step keeps the shift register of a READ equal to the samples taken so far, MSB first. -/
def Obligations.EveryStepKeepsTheReadShifter : Prop :=
  ∀ s t : State, ReadShifterOk s → step s = .next t → ReadShifterOk t

/-- R22, R86, R99: a READ that completes without abort leaves in RDATA the 16 bits it sampled last, MSB first. -/
def Obligations.CompletedReadReturnsItsSamples : Prop :=
  ∀ s s' : State, SequencerNext s s' → s.fault.mapFailed = false → ReadShifterOk s → s.mode = .rd →
    s.upc = 194 → s.cmd ≠ none → s.apend = false →
    ∃ t older taken, step s = .next t ∧ t.mode = .idle ∧ t.rdv = true ∧
      sampledBits t.hist = older ++ taken ∧ taken.length = 16 ∧
      t.rdata = some (BitVec.ofNat 16 (msbFirst taken))

/-! ## Whole-machine rules -/

/-- R14, R15: whatever the block, its host and its devices do, no bit of DIR or OUT but the two lines' ever
changes; only another agent's write (R51) changes others. -/
def Obligations.OtherGpioBitsAreNeverTouched : Prop :=
  ∀ (s t : State) (k : Nat), step s = .next t → (∀ r w rest, s.turns ≠ .otherAgent r w :: rest) →
    k ≠ s.params.mdioBit.val → k ≠ s.params.mdcBit.val →
    t.dir.getLsbD k = s.dir.getLsbD k ∧ t.out.getLsbD k = s.out.getLsbD k

/-- R42, R51: another agent's write to its own bits changes neither line nor anything else of the block. -/
def Obligations.OtherAgentsDoNotDisturbTheLines : Prop :=
  ∀ (s : State) (r : GpioReg) (w : Word) (rest : List Turn), s.params.wf = true → r ≠ .inSample →
    w.getLsbD s.params.mdioBit.val = false → w.getLsbD s.params.mdcBit.val = false →
    s.turns = .otherAgent r w :: rest →
    ∃ t, step s = .next t ∧ t = { s with turns := rest, dir := t.dir, out := t.out } ∧
      ∀ l, t.dirBit l = s.dirBit l ∧ t.outBit l = s.outBit l

/-- R22: RDATA changes only when a READ completes without abort, to SR, and at a reset, to no value. -/
def Obligations.RdataChangesOnlyAtAReadOrReset : Prop :=
  ∀ s t : State, step s = .next t →
    t.rdata = s.rdata ∨ t.mode = .rst ∧ t.rdata = none ∨
      s.mode = .rd ∧ s.upc = 194 ∧ s.apend = false ∧ t.mode = .idle ∧ t.rdata = s.sr

/-- R20, R49: while BUSY = 1 the command latch does not change, but for a reset. -/
def Obligations.CommandLatchIsStableWhileBusy : Prop :=
  ∀ s t : State, s.busy = true → step s = .next t → t.cmd = s.cmd ∨ t.mode = .rst ∧ t.cmd = none

/-- R34, R35, R36, R41: the only accesses that happen are whole aligned words, writes of set and clear registers
and reads of IN. -/
def Obligations.OnlyTheFiveRegistersAreAccessed : Prop :=
  (∀ (a w : Word) (n : Nat) (s t : State), memWrite a n w s = .ok t →
    n = 4 ∧ a.toNat % 4 = 0 ∧ ∃ r, r ≠ .inSample ∧ a = s.params.gpioBase + s.params.offset r ∧
      t.port = s.port ++ [.write a w]) ∧
  (∀ (a : Word) (n : Nat) (s t : State) (v : Word), memRead a n s = .ok (v, t) →
    n = 4 ∧ a.toNat % 4 = 0 ∧ a = s.params.gpioBase + s.params.offIn ∧ t.port = s.port ++ [.read a] ∧
      t.dir = s.dir ∧ t.out = s.out)

/-- R41, R124: a parameter set with a misaligned base or offset, two equal offsets, or both lines on one bit, is
refused: no step is taken. -/
def Obligations.BadParametersAreRefused : Prop :=
  ∀ s : State,
    s.params.gpioBase.toNat % 4 ≠ 0 ∨ (∃ r, (s.params.offset r).toNat % 4 ≠ 0) ∨
      (∃ r r', r ≠ r' ∧ s.params.offset r = s.params.offset r') ∨ s.params.mdioBit = s.params.mdcBit →
    step s = .refused .badParameters

/-- R17, R43: a 1 in a word written to a set register sets its latch bit, to a clear register clears it; a 0
changes nothing; writing the same word twice is writing it once. -/
def Obligations.SetAndClearRegisters : Prop :=
  ∀ (s : State) (w : Word) (k : Nat),
    (regWrite .dirSet w s).dir.getLsbD k = (s.dir.getLsbD k || w.getLsbD k) ∧
    (regWrite .dirClr w s).dir.getLsbD k = (s.dir.getLsbD k && !w.getLsbD k) ∧
    (regWrite .outSet w s).out.getLsbD k = (s.out.getLsbD k || w.getLsbD k) ∧
    (regWrite .outClr w s).out.getLsbD k = (s.out.getLsbD k && !w.getLsbD k) ∧
    (∀ r, regWrite r w (regWrite r w s) = regWrite r w s)

/-- R29, R107: ReadStatus is pure, and reports BUSY, RDATA, RDV, ABORTED and the four fault bits in their
places; `rdata` has a value only while RDV = 1 (R22, 93 I14; DEDUCED, log entry 26). -/
def Obligations.ReadStatusReportsAndChangesNothing : Prop :=
  ∀ s : State,
    (s.status.busy = true ↔ s.mode ≠ .idle) ∧ s.status.rdata = (if s.rdv then s.rdata else none) ∧
    s.status.rdv = s.rdv ∧ s.status.aborted = s.aborted ∧ s.status.fault.getLsbD 0 = s.fault.illegalCommand ∧
    s.status.fault.getLsbD 1 = s.fault.cmdWhileBusy ∧ s.status.fault.getLsbD 2 = s.fault.contention ∧
    s.status.fault.getLsbD 3 = s.fault.mapFailed ∧
    (∀ rest, s.params.wf = true → s.turns = .readStatus :: rest → step s = .next { s with turns := rest })

/-- R112: inputs sampled in one cycle: reset wins and the others are dropped; otherwise abort, then Issue. -/
def Obligations.SampledInputsTakeTheirOrder : Prop :=
  ∀ (s : State) (a : Bool) (c : Word) (o : Option Word) (rest : List Turn),
    step { s with turns := .sampled true a o :: rest } = step { s with turns := .reset :: rest } ∧
    step { s with turns := .sampled false true none :: rest } = step { s with turns := .abort :: rest } ∧
    step { s with turns := .sampled false false (some c) :: rest } =
      step { s with turns := .issue c :: rest } ∧
    (∀ m, step { s with turns := .abort :: .issue c :: rest } = .next m →
      step { s with turns := .sampled false true (some c) :: rest } = step m)

/-- R64: WAIT polls until BUSY = 0: while the block is busy the sequencer moves and WAIT stays first; when it is
idle WAIT is done. -/
def Obligations.WaitLetsTheSequencerRun : Prop :=
  ∀ (s : State) (rest : List Turn), s.params.wf = true → s.turns = .wait :: rest →
    (s.mode = .idle → step s = .next { s with turns := rest }) ∧
    (∀ t, s.mode ≠ .idle → step s = .next t → t.turns = s.turns) ∧
    (∀ t, s.mode ≠ .idle → step { s with turns := [.sequencer] } = .next t →
      step s = .next { t with turns := s.turns })

/-! ## Arbitration and whole frames -/

/-- R98: every SAMPLE of a trace is performed with MDIO an input. -/
def Obligations.SampleOnlyWhileMdioIsReleased : Prop :=
  ∀ s : State, Inv s → s.terminated = false → s.nextUop = some 0x8#4 → s.dirBit .mdio = false

/-- R127: while MDC is high in a host-driven slot, the sequencer's next step neither changes nor releases
MDIO. -/
def Obligations.MdioIsStableWhileMdcIsHigh : Prop :=
  ∀ s s' t : State, Inv s → s.terminated = false → SequencerNext s s' → s.mode = .wr ∨ s.mode = .rd →
    s.upc + 2 < traceLen s.mode → s.drv .mdc = some true → s.drv .mdio ≠ none → step s = .next t →
    t.drv .mdio = s.drv .mdio

/-- R95, R97, R27: a WRITE left to the sequencer is 64 pulses; MDIO at the j-th rising edge is 1 for the 32
preamble slots and then the bits of the command word, MSB first; the host never lets go of MDIO at a rising edge;
then both lines are released with the last levels latched, and SR is 0. -/
def Obligations.WriteFrameOnTheWire : Prop :=
  ∀ (s : State) (pa ra : Addr5) (d : Half) (c : Word), SequencerAlone s → s.mode = .wr → s.upc = 0 →
    s.cmd = some ⟨opWrite, pa, ra, some d⟩ → s.sr = some d → s.apend = false → s.released →
    encode (.write pa ra d) = .cmd32 c →
    ∃ t es, stepN 198 s = .next t ∧ t.mode = .idle ∧ t.hist = s.hist ++ es ∧ mdcEdges es = pulses 64 ∧
      driveAtRises none es = (List.replicate 32 true ++ bitsMsbFirst 32 c.toNat).map some ∧
      sampledBits es = [] ∧ t.released ∧ t.outBit .mdio = d.getLsbD 0 ∧ t.outBit .mdc = false ∧
      t.sr = some 0#16 ∧ t.port.length = s.port.length + 198

/-- R99, R97, R27: a READ left to the sequencer is 63 pulses; MDIO carries the 32 preamble ones and the header,
MSB first, and is not driven by the host in the 17 slots after it; 16 samples are taken, and RDATA is made of
them, MSB first. -/
def Obligations.ReadFrameOnTheWire : Prop :=
  ∀ (s : State) (pa ra : Addr5) (h : BitVec 14), SequencerAlone s → s.mode = .rd → s.upc = 0 →
    s.cmd = some ⟨opRead, pa, ra, none⟩ → s.sr = some 0#16 → s.apend = false → s.released →
    h = 0x1800#14 ||| (pa.setWidth 14 <<< 5) ||| ra.setWidth 14 →
    ∃ t es, stepN 195 s = .next t ∧ t.mode = .idle ∧ t.hist = s.hist ++ es ∧ mdcEdges es = pulses 63 ∧
      driveAtRises none es =
        (List.replicate 32 true ++ bitsMsbFirst 14 h.toNat).map some ++ List.replicate 17 none ∧
      (sampledBits es).length = 16 ∧ t.rdata = some (BitVec.ofNat 16 (msbFirst (sampledBits es))) ∧
      t.rdv = true ∧ t.released ∧ t.outBit .mdio = ra.getLsbD 0 ∧ t.outBit .mdc = false ∧
      t.port.length = s.port.length + 195

/-- R104: the round trip: with the reference device present at `pa` and hunting, WR pa, ra, d; WAIT; RD pa, ra;
WAIT ends with RDATA = d, RDV = 1, the register written, and no new fault (no contention). -/
def Obligations.ReadReturnsWhatWriteStored : Prop :=
  ∀ (s : State) (dev : RefDevice) (pa ra : Addr5) (d : Half) (x : BitVec 18) (cw cr : Word),
    s.params.wf = true → s.fault.mapFailed = false → s.mode = .idle → s.released →
    s.devices = .reference dev → dev.Ok → dev.phase = .hunting → pa ∈ dev.present →
    encode (.write pa ra d) = .cmd32 cw → encode (.read pa ra x) = .cmd32 cr →
    s.turns = [.issue cw, .wait, .issue cr, .wait] →
    ∃ n t dev', stepN n s = .next t ∧ t.mode = .idle ∧ t.turns = [] ∧ t.rdata = some d ∧ t.rdv = true ∧
      t.fault = s.fault ∧ t.devices = .reference dev' ∧ dev'.phase = .hunting ∧
      regGet dev'.regs (regKey pa ra) = d
end

