-- ==== Sys2Proof/Laws/Device.lean ====
section
/-! SUPPORT. The reference device's register file (R104): every operation keeps the canonical form. -/

namespace Sys2Proof.Machine

theorem regSorted_mono {lo lo' : Nat} (h : lo' ≤ lo) {r : RegFile} (hr : regSorted lo r = true) :
    regSorted lo' r = true := by
  cases r with
  | nil => rfl
  | cons e rest =>
    simp only [regSorted, Bool.and_eq_true, decide_eq_true_eq] at hr ⊢
    exact ⟨⟨by omega, hr.1.2⟩, hr.2⟩

theorem regCons_sorted {a lo : Nat} {v : Half} {rest : RegFile} (ha : lo ≤ a)
    (h : regSorted (a + 1) rest = true) : regSorted lo (regCons a v rest) = true := by
  unfold regCons
  split
  · exact regSorted_mono (by omega) h
  · rename_i hv
    simp [regSorted, ha, hv, h]

theorem regPut_sorted {lo a : Nat} {v : Half} {r : RegFile} (ha : lo ≤ a) (h : regSorted lo r = true) :
    regSorted lo (regPut r a v) = true := by
  induction r generalizing lo with
  | nil => exact regCons_sorted ha rfl
  | cons e rest ih =>
    obtain ⟨k, x⟩ := e
    simp only [regSorted, Bool.and_eq_true, decide_eq_true_eq] at h
    unfold regPut
    split
    · refine regCons_sorted ha ?_
      simp only [regSorted, Bool.and_eq_true, decide_eq_true_eq]
      exact ⟨⟨by omega, h.1.2⟩, h.2⟩
    split
    · rename_i hak
      subst hak
      exact regCons_sorted h.1.1 h.2
    · simp only [regSorted, Bool.and_eq_true, decide_eq_true_eq]
      exact ⟨h.1, ih (by omega) h.2⟩

/-- Writing a register keeps the canonical form. -/
theorem regPut_wf {r : RegFile} (h : RegFile.wf r = true) (a : Nat) (v : Half) :
    RegFile.wf (regPut r a v) = true := regPut_sorted (Nat.zero_le a) h

theorem regGet_below {lo a : Nat} {r : RegFile} (h : regSorted lo r = true) (ha : a < lo) : regGet r a = 0#16 := by
  induction r generalizing lo with
  | nil => rfl
  | cons e rest ih =>
    obtain ⟨k, x⟩ := e
    simp only [regSorted, Bool.and_eq_true, decide_eq_true_eq] at h
    unfold regGet
    rw [if_neg (by omega)]
    exact ih h.2 (by omega)

theorem regGet_cons (a b : Nat) (v : Half) (rest : RegFile) (h : a = b → regGet rest b = 0#16 ∨ v ≠ 0#16) :
    regGet (regCons a v rest) b = if a = b then v else regGet rest b := by
  unfold regCons
  by_cases hv : v = 0#16
  · rw [if_pos hv]
    by_cases hab : a = b
    · rw [if_pos hab, hv]; exact (h hab).resolve_right (fun n => n hv)
    · rw [if_neg hab]
  · rw [if_neg hv]; rfl

/-- A register reads what was written to it, and the others what they read before. -/
theorem regGet_put {lo : Nat} {r : RegFile} (h : regSorted lo r = true) (a b : Nat) (v : Half) :
    regGet (regPut r a v) b = if a = b then v else regGet r b := by
  induction r generalizing lo with
  | nil => exact regGet_cons a b v [] (fun _ => .inl rfl)
  | cons e rest ih =>
    obtain ⟨k, x⟩ := e
    have hs := h
    simp only [regSorted, Bool.and_eq_true, decide_eq_true_eq] at h
    unfold regPut
    split
    · rename_i hak
      refine regGet_cons a b v _ (fun e => .inl ?_)
      subst e
      unfold regGet
      rw [if_neg (by omega)]
      exact regGet_below h.2 (by omega)
    split
    · rename_i hak
      subst hak
      rw [regGet_cons a b v rest (fun e => .inl (by subst e; exact regGet_below h.2 (by omega)))]
      by_cases hab : a = b <;> simp [regGet, hab]
    · rename_i h1 h2
      simp only [regGet]
      by_cases hkb : k = b
      · subst hkb; simp [h2]
      · simp only [hkb, if_false]
        exact ih h.2

end Sys2Proof.Machine
end

