-- ==== Sys2Proof/Laws/State.lean ====
section
/-! SUPPORT. What each update of the state does to each field: a proof about a field never unfolds the update. -/

namespace Sys2Proof.Machine

/-! ### regWrite -/

@[simp] theorem regWrite_params (r : GpioReg) (w : Word) (s : State) :
    (regWrite r w s).params = s.params := by cases r <;> rfl
@[simp] theorem regWrite_mode (r : GpioReg) (w : Word) (s : State) :
    (regWrite r w s).mode = s.mode := by cases r <;> rfl
@[simp] theorem regWrite_upc (r : GpioReg) (w : Word) (s : State) :
    (regWrite r w s).upc = s.upc := by cases r <;> rfl
@[simp] theorem regWrite_cmd (r : GpioReg) (w : Word) (s : State) :
    (regWrite r w s).cmd = s.cmd := by cases r <;> rfl
@[simp] theorem regWrite_sr (r : GpioReg) (w : Word) (s : State) :
    (regWrite r w s).sr = s.sr := by cases r <;> rfl
@[simp] theorem regWrite_rdata (r : GpioReg) (w : Word) (s : State) :
    (regWrite r w s).rdata = s.rdata := by cases r <;> rfl
@[simp] theorem regWrite_rdv (r : GpioReg) (w : Word) (s : State) :
    (regWrite r w s).rdv = s.rdv := by cases r <;> rfl
@[simp] theorem regWrite_aborted (r : GpioReg) (w : Word) (s : State) :
    (regWrite r w s).aborted = s.aborted := by cases r <;> rfl
@[simp] theorem regWrite_apend (r : GpioReg) (w : Word) (s : State) :
    (regWrite r w s).apend = s.apend := by cases r <;> rfl
@[simp] theorem regWrite_fault (r : GpioReg) (w : Word) (s : State) :
    (regWrite r w s).fault = s.fault := by cases r <;> rfl
@[simp] theorem regWrite_hist (r : GpioReg) (w : Word) (s : State) :
    (regWrite r w s).hist = s.hist := by cases r <;> rfl
@[simp] theorem regWrite_devices (r : GpioReg) (w : Word) (s : State) :
    (regWrite r w s).devices = s.devices := by cases r <;> rfl
@[simp] theorem regWrite_draws (r : GpioReg) (w : Word) (s : State) :
    (regWrite r w s).draws = s.draws := by cases r <;> rfl
@[simp] theorem regWrite_port (r : GpioReg) (w : Word) (s : State) :
    (regWrite r w s).port = s.port := by cases r <;> rfl
@[simp] theorem regWrite_turns (r : GpioReg) (w : Word) (s : State) :
    (regWrite r w s).turns = s.turns := by cases r <;> rfl
@[simp] theorem regWrite_terminated (r : GpioReg) (w : Word) (s : State) :
    (regWrite r w s).terminated = s.terminated := by cases r <;> rfl

/-! ### emit -/

@[simp] theorem emit_params (es : List LineEvent) (s : State) :
    (emit es s).params = s.params := rfl
@[simp] theorem emit_dir (es : List LineEvent) (s : State) :
    (emit es s).dir = s.dir := rfl
@[simp] theorem emit_out (es : List LineEvent) (s : State) :
    (emit es s).out = s.out := rfl
@[simp] theorem emit_mode (es : List LineEvent) (s : State) :
    (emit es s).mode = s.mode := rfl
@[simp] theorem emit_upc (es : List LineEvent) (s : State) :
    (emit es s).upc = s.upc := rfl
@[simp] theorem emit_cmd (es : List LineEvent) (s : State) :
    (emit es s).cmd = s.cmd := rfl
@[simp] theorem emit_sr (es : List LineEvent) (s : State) :
    (emit es s).sr = s.sr := rfl
@[simp] theorem emit_rdata (es : List LineEvent) (s : State) :
    (emit es s).rdata = s.rdata := rfl
@[simp] theorem emit_rdv (es : List LineEvent) (s : State) :
    (emit es s).rdv = s.rdv := rfl
@[simp] theorem emit_aborted (es : List LineEvent) (s : State) :
    (emit es s).aborted = s.aborted := rfl
@[simp] theorem emit_apend (es : List LineEvent) (s : State) :
    (emit es s).apend = s.apend := rfl
@[simp] theorem emit_fault (es : List LineEvent) (s : State) :
    (emit es s).fault = s.fault := rfl
@[simp] theorem emit_hist (es : List LineEvent) (s : State) :
    (emit es s).hist = s.hist ++ es := rfl
@[simp] theorem emit_devices (es : List LineEvent) (s : State) :
    (emit es s).devices = s.devices := rfl
@[simp] theorem emit_draws (es : List LineEvent) (s : State) :
    (emit es s).draws = s.draws := rfl
@[simp] theorem emit_port (es : List LineEvent) (s : State) :
    (emit es s).port = s.port := rfl
@[simp] theorem emit_turns (es : List LineEvent) (s : State) :
    (emit es s).turns = s.turns := rfl
@[simp] theorem emit_terminated (es : List LineEvent) (s : State) :
    (emit es s).terminated = s.terminated := rfl

/-! ### raiseIllegalCommand -/

@[simp] theorem raiseIllegalCommand_params (s : State) :
    (raiseIllegalCommand s).params = s.params := rfl
@[simp] theorem raiseIllegalCommand_dir (s : State) :
    (raiseIllegalCommand s).dir = s.dir := rfl
@[simp] theorem raiseIllegalCommand_out (s : State) :
    (raiseIllegalCommand s).out = s.out := rfl
@[simp] theorem raiseIllegalCommand_mode (s : State) :
    (raiseIllegalCommand s).mode = s.mode := rfl
@[simp] theorem raiseIllegalCommand_upc (s : State) :
    (raiseIllegalCommand s).upc = s.upc := rfl
@[simp] theorem raiseIllegalCommand_cmd (s : State) :
    (raiseIllegalCommand s).cmd = s.cmd := rfl
@[simp] theorem raiseIllegalCommand_sr (s : State) :
    (raiseIllegalCommand s).sr = s.sr := rfl
@[simp] theorem raiseIllegalCommand_rdata (s : State) :
    (raiseIllegalCommand s).rdata = s.rdata := rfl
@[simp] theorem raiseIllegalCommand_rdv (s : State) :
    (raiseIllegalCommand s).rdv = s.rdv := rfl
@[simp] theorem raiseIllegalCommand_aborted (s : State) :
    (raiseIllegalCommand s).aborted = s.aborted := rfl
@[simp] theorem raiseIllegalCommand_apend (s : State) :
    (raiseIllegalCommand s).apend = s.apend := rfl
@[simp] theorem raiseIllegalCommand_fault (s : State) :
    (raiseIllegalCommand s).fault = { s.fault with illegalCommand := true } := rfl
@[simp] theorem raiseIllegalCommand_hist (s : State) :
    (raiseIllegalCommand s).hist = s.hist := rfl
@[simp] theorem raiseIllegalCommand_devices (s : State) :
    (raiseIllegalCommand s).devices = s.devices := rfl
@[simp] theorem raiseIllegalCommand_draws (s : State) :
    (raiseIllegalCommand s).draws = s.draws := rfl
@[simp] theorem raiseIllegalCommand_port (s : State) :
    (raiseIllegalCommand s).port = s.port := rfl
@[simp] theorem raiseIllegalCommand_turns (s : State) :
    (raiseIllegalCommand s).turns = s.turns := rfl
@[simp] theorem raiseIllegalCommand_terminated (s : State) :
    (raiseIllegalCommand s).terminated = s.terminated := rfl

/-! ### raiseCmdWhileBusy -/

@[simp] theorem raiseCmdWhileBusy_params (s : State) :
    (raiseCmdWhileBusy s).params = s.params := rfl
@[simp] theorem raiseCmdWhileBusy_dir (s : State) :
    (raiseCmdWhileBusy s).dir = s.dir := rfl
@[simp] theorem raiseCmdWhileBusy_out (s : State) :
    (raiseCmdWhileBusy s).out = s.out := rfl
@[simp] theorem raiseCmdWhileBusy_mode (s : State) :
    (raiseCmdWhileBusy s).mode = s.mode := rfl
@[simp] theorem raiseCmdWhileBusy_upc (s : State) :
    (raiseCmdWhileBusy s).upc = s.upc := rfl
@[simp] theorem raiseCmdWhileBusy_cmd (s : State) :
    (raiseCmdWhileBusy s).cmd = s.cmd := rfl
@[simp] theorem raiseCmdWhileBusy_sr (s : State) :
    (raiseCmdWhileBusy s).sr = s.sr := rfl
@[simp] theorem raiseCmdWhileBusy_rdata (s : State) :
    (raiseCmdWhileBusy s).rdata = s.rdata := rfl
@[simp] theorem raiseCmdWhileBusy_rdv (s : State) :
    (raiseCmdWhileBusy s).rdv = s.rdv := rfl
@[simp] theorem raiseCmdWhileBusy_aborted (s : State) :
    (raiseCmdWhileBusy s).aborted = s.aborted := rfl
@[simp] theorem raiseCmdWhileBusy_apend (s : State) :
    (raiseCmdWhileBusy s).apend = s.apend := rfl
@[simp] theorem raiseCmdWhileBusy_fault (s : State) :
    (raiseCmdWhileBusy s).fault = { s.fault with cmdWhileBusy := true } := rfl
@[simp] theorem raiseCmdWhileBusy_hist (s : State) :
    (raiseCmdWhileBusy s).hist = s.hist := rfl
@[simp] theorem raiseCmdWhileBusy_devices (s : State) :
    (raiseCmdWhileBusy s).devices = s.devices := rfl
@[simp] theorem raiseCmdWhileBusy_draws (s : State) :
    (raiseCmdWhileBusy s).draws = s.draws := rfl
@[simp] theorem raiseCmdWhileBusy_port (s : State) :
    (raiseCmdWhileBusy s).port = s.port := rfl
@[simp] theorem raiseCmdWhileBusy_turns (s : State) :
    (raiseCmdWhileBusy s).turns = s.turns := rfl
@[simp] theorem raiseCmdWhileBusy_terminated (s : State) :
    (raiseCmdWhileBusy s).terminated = s.terminated := rfl

/-! ### raiseContentionIf -/

@[simp] theorem raiseContentionIf_params (c : Bool) (s : State) :
    (raiseContentionIf c s).params = s.params := rfl
@[simp] theorem raiseContentionIf_dir (c : Bool) (s : State) :
    (raiseContentionIf c s).dir = s.dir := rfl
@[simp] theorem raiseContentionIf_out (c : Bool) (s : State) :
    (raiseContentionIf c s).out = s.out := rfl
@[simp] theorem raiseContentionIf_mode (c : Bool) (s : State) :
    (raiseContentionIf c s).mode = s.mode := rfl
@[simp] theorem raiseContentionIf_upc (c : Bool) (s : State) :
    (raiseContentionIf c s).upc = s.upc := rfl
@[simp] theorem raiseContentionIf_cmd (c : Bool) (s : State) :
    (raiseContentionIf c s).cmd = s.cmd := rfl
@[simp] theorem raiseContentionIf_sr (c : Bool) (s : State) :
    (raiseContentionIf c s).sr = s.sr := rfl
@[simp] theorem raiseContentionIf_rdata (c : Bool) (s : State) :
    (raiseContentionIf c s).rdata = s.rdata := rfl
@[simp] theorem raiseContentionIf_rdv (c : Bool) (s : State) :
    (raiseContentionIf c s).rdv = s.rdv := rfl
@[simp] theorem raiseContentionIf_aborted (c : Bool) (s : State) :
    (raiseContentionIf c s).aborted = s.aborted := rfl
@[simp] theorem raiseContentionIf_apend (c : Bool) (s : State) :
    (raiseContentionIf c s).apend = s.apend := rfl
@[simp] theorem raiseContentionIf_fault (c : Bool) (s : State) :
    (raiseContentionIf c s).fault = { s.fault with contention := s.fault.contention || c } := rfl
@[simp] theorem raiseContentionIf_hist (c : Bool) (s : State) :
    (raiseContentionIf c s).hist = s.hist := rfl
@[simp] theorem raiseContentionIf_devices (c : Bool) (s : State) :
    (raiseContentionIf c s).devices = s.devices := rfl
@[simp] theorem raiseContentionIf_draws (c : Bool) (s : State) :
    (raiseContentionIf c s).draws = s.draws := rfl
@[simp] theorem raiseContentionIf_port (c : Bool) (s : State) :
    (raiseContentionIf c s).port = s.port := rfl
@[simp] theorem raiseContentionIf_turns (c : Bool) (s : State) :
    (raiseContentionIf c s).turns = s.turns := rfl
@[simp] theorem raiseContentionIf_terminated (c : Bool) (s : State) :
    (raiseContentionIf c s).terminated = s.terminated := rfl

/-! ### acceptWrite -/

@[simp] theorem acceptWrite_params (pa ra : Addr5) (d : Half) (s : State) :
    (acceptWrite pa ra d s).params = s.params := rfl
@[simp] theorem acceptWrite_dir (pa ra : Addr5) (d : Half) (s : State) :
    (acceptWrite pa ra d s).dir = s.dir := rfl
@[simp] theorem acceptWrite_out (pa ra : Addr5) (d : Half) (s : State) :
    (acceptWrite pa ra d s).out = s.out := rfl
@[simp] theorem acceptWrite_mode (pa ra : Addr5) (d : Half) (s : State) :
    (acceptWrite pa ra d s).mode = .wr := rfl
@[simp] theorem acceptWrite_upc (pa ra : Addr5) (d : Half) (s : State) :
    (acceptWrite pa ra d s).upc = 0 := rfl
@[simp] theorem acceptWrite_cmd (pa ra : Addr5) (d : Half) (s : State) :
    (acceptWrite pa ra d s).cmd = some ⟨opWrite, pa, ra, some d⟩ := rfl
@[simp] theorem acceptWrite_sr (pa ra : Addr5) (d : Half) (s : State) :
    (acceptWrite pa ra d s).sr = some d := rfl
@[simp] theorem acceptWrite_rdata (pa ra : Addr5) (d : Half) (s : State) :
    (acceptWrite pa ra d s).rdata = s.rdata := rfl
@[simp] theorem acceptWrite_rdv (pa ra : Addr5) (d : Half) (s : State) :
    (acceptWrite pa ra d s).rdv = false := rfl
@[simp] theorem acceptWrite_aborted (pa ra : Addr5) (d : Half) (s : State) :
    (acceptWrite pa ra d s).aborted = false := rfl
@[simp] theorem acceptWrite_apend (pa ra : Addr5) (d : Half) (s : State) :
    (acceptWrite pa ra d s).apend = false := rfl
@[simp] theorem acceptWrite_fault (pa ra : Addr5) (d : Half) (s : State) :
    (acceptWrite pa ra d s).fault = s.fault := rfl
@[simp] theorem acceptWrite_hist (pa ra : Addr5) (d : Half) (s : State) :
    (acceptWrite pa ra d s).hist = s.hist := rfl
@[simp] theorem acceptWrite_devices (pa ra : Addr5) (d : Half) (s : State) :
    (acceptWrite pa ra d s).devices = s.devices := rfl
@[simp] theorem acceptWrite_draws (pa ra : Addr5) (d : Half) (s : State) :
    (acceptWrite pa ra d s).draws = s.draws := rfl
@[simp] theorem acceptWrite_port (pa ra : Addr5) (d : Half) (s : State) :
    (acceptWrite pa ra d s).port = s.port := rfl
@[simp] theorem acceptWrite_turns (pa ra : Addr5) (d : Half) (s : State) :
    (acceptWrite pa ra d s).turns = s.turns := rfl
@[simp] theorem acceptWrite_terminated (pa ra : Addr5) (d : Half) (s : State) :
    (acceptWrite pa ra d s).terminated = s.terminated := rfl

/-! ### acceptRead -/

@[simp] theorem acceptRead_params (pa ra : Addr5) (s : State) :
    (acceptRead pa ra s).params = s.params := rfl
@[simp] theorem acceptRead_dir (pa ra : Addr5) (s : State) :
    (acceptRead pa ra s).dir = s.dir := rfl
@[simp] theorem acceptRead_out (pa ra : Addr5) (s : State) :
    (acceptRead pa ra s).out = s.out := rfl
@[simp] theorem acceptRead_mode (pa ra : Addr5) (s : State) :
    (acceptRead pa ra s).mode = .rd := rfl
@[simp] theorem acceptRead_upc (pa ra : Addr5) (s : State) :
    (acceptRead pa ra s).upc = 0 := rfl
@[simp] theorem acceptRead_cmd (pa ra : Addr5) (s : State) :
    (acceptRead pa ra s).cmd = some ⟨opRead, pa, ra, none⟩ := rfl
@[simp] theorem acceptRead_sr (pa ra : Addr5) (s : State) :
    (acceptRead pa ra s).sr = some 0#16 := rfl
@[simp] theorem acceptRead_rdata (pa ra : Addr5) (s : State) :
    (acceptRead pa ra s).rdata = s.rdata := rfl
@[simp] theorem acceptRead_rdv (pa ra : Addr5) (s : State) :
    (acceptRead pa ra s).rdv = false := rfl
@[simp] theorem acceptRead_aborted (pa ra : Addr5) (s : State) :
    (acceptRead pa ra s).aborted = false := rfl
@[simp] theorem acceptRead_apend (pa ra : Addr5) (s : State) :
    (acceptRead pa ra s).apend = false := rfl
@[simp] theorem acceptRead_fault (pa ra : Addr5) (s : State) :
    (acceptRead pa ra s).fault = s.fault := rfl
@[simp] theorem acceptRead_hist (pa ra : Addr5) (s : State) :
    (acceptRead pa ra s).hist = s.hist := rfl
@[simp] theorem acceptRead_devices (pa ra : Addr5) (s : State) :
    (acceptRead pa ra s).devices = s.devices := rfl
@[simp] theorem acceptRead_draws (pa ra : Addr5) (s : State) :
    (acceptRead pa ra s).draws = s.draws := rfl
@[simp] theorem acceptRead_port (pa ra : Addr5) (s : State) :
    (acceptRead pa ra s).port = s.port := rfl
@[simp] theorem acceptRead_turns (pa ra : Addr5) (s : State) :
    (acceptRead pa ra s).turns = s.turns := rfl
@[simp] theorem acceptRead_terminated (pa ra : Addr5) (s : State) :
    (acceptRead pa ra s).terminated = s.terminated := rfl

/-! ### abortAction -/

@[simp] theorem abortAction_params (s : State) :
    (abortAction s).params = s.params := by unfold abortAction; split <;> rfl
@[simp] theorem abortAction_dir (s : State) :
    (abortAction s).dir = s.dir := by unfold abortAction; split <;> rfl
@[simp] theorem abortAction_out (s : State) :
    (abortAction s).out = s.out := by unfold abortAction; split <;> rfl
@[simp] theorem abortAction_mode (s : State) :
    (abortAction s).mode = s.mode := by unfold abortAction; split <;> rfl
@[simp] theorem abortAction_cmd (s : State) :
    (abortAction s).cmd = s.cmd := by unfold abortAction; split <;> rfl
@[simp] theorem abortAction_sr (s : State) :
    (abortAction s).sr = s.sr := by unfold abortAction; split <;> rfl
@[simp] theorem abortAction_rdata (s : State) :
    (abortAction s).rdata = s.rdata := by unfold abortAction; split <;> rfl
@[simp] theorem abortAction_rdv (s : State) :
    (abortAction s).rdv = s.rdv := by unfold abortAction; split <;> rfl
@[simp] theorem abortAction_aborted (s : State) :
    (abortAction s).aborted = s.aborted := by unfold abortAction; split <;> rfl
@[simp] theorem abortAction_fault (s : State) :
    (abortAction s).fault = s.fault := by unfold abortAction; split <;> rfl
@[simp] theorem abortAction_hist (s : State) :
    (abortAction s).hist = s.hist := by unfold abortAction; split <;> rfl
@[simp] theorem abortAction_devices (s : State) :
    (abortAction s).devices = s.devices := by unfold abortAction; split <;> rfl
@[simp] theorem abortAction_draws (s : State) :
    (abortAction s).draws = s.draws := by unfold abortAction; split <;> rfl
@[simp] theorem abortAction_port (s : State) :
    (abortAction s).port = s.port := by unfold abortAction; split <;> rfl
@[simp] theorem abortAction_turns (s : State) :
    (abortAction s).turns = s.turns := by unfold abortAction; split <;> rfl
@[simp] theorem abortAction_terminated (s : State) :
    (abortAction s).terminated = s.terminated := by unfold abortAction; split <;> rfl

/-! ### resetAction -/

@[simp] theorem resetAction_params (s : State) :
    (resetAction s).params = s.params := rfl
@[simp] theorem resetAction_dir (s : State) :
    (resetAction s).dir = s.dir := rfl
@[simp] theorem resetAction_out (s : State) :
    (resetAction s).out = s.out := rfl
@[simp] theorem resetAction_mode (s : State) :
    (resetAction s).mode = .rst := rfl
@[simp] theorem resetAction_upc (s : State) :
    (resetAction s).upc = 0 := rfl
@[simp] theorem resetAction_cmd (s : State) :
    (resetAction s).cmd = none := rfl
@[simp] theorem resetAction_sr (s : State) :
    (resetAction s).sr = none := rfl
@[simp] theorem resetAction_rdata (s : State) :
    (resetAction s).rdata = none := rfl
@[simp] theorem resetAction_rdv (s : State) :
    (resetAction s).rdv = false := rfl
@[simp] theorem resetAction_aborted (s : State) :
    (resetAction s).aborted = false := rfl
@[simp] theorem resetAction_apend (s : State) :
    (resetAction s).apend = false := rfl
@[simp] theorem resetAction_fault (s : State) :
    (resetAction s).fault = s.fault := rfl
@[simp] theorem resetAction_hist (s : State) :
    (resetAction s).hist = [] := rfl
@[simp] theorem resetAction_devices (s : State) :
    (resetAction s).devices = s.devices := rfl
@[simp] theorem resetAction_draws (s : State) :
    (resetAction s).draws = s.draws := rfl
@[simp] theorem resetAction_port (s : State) :
    (resetAction s).port = [] := rfl
@[simp] theorem resetAction_turns (s : State) :
    (resetAction s).turns = s.turns := rfl
@[simp] theorem resetAction_terminated (s : State) :
    (resetAction s).terminated = false := rfl

/-! ### complete -/

@[simp] theorem complete_params (s : State) :
    (complete s).params = s.params := by unfold complete; cases s.mode <;> rfl
@[simp] theorem complete_dir (s : State) :
    (complete s).dir = s.dir := by unfold complete; cases s.mode <;> rfl
@[simp] theorem complete_out (s : State) :
    (complete s).out = s.out := by unfold complete; cases s.mode <;> rfl
@[simp] theorem complete_mode (s : State) :
    (complete s).mode = .idle := by unfold complete; cases s.mode <;> rfl
@[simp] theorem complete_upc (s : State) :
    (complete s).upc = 0 := by unfold complete; cases s.mode <;> rfl
@[simp] theorem complete_cmd (s : State) :
    (complete s).cmd = s.cmd := by unfold complete; cases s.mode <;> rfl
@[simp] theorem complete_sr (s : State) :
    (complete s).sr = s.sr := by unfold complete; cases s.mode <;> rfl
@[simp] theorem complete_apend (s : State) :
    (complete s).apend = false := by unfold complete; cases s.mode <;> rfl
@[simp] theorem complete_fault (s : State) :
    (complete s).fault = s.fault := by unfold complete; cases s.mode <;> rfl
@[simp] theorem complete_hist (s : State) :
    (complete s).hist = s.hist := by unfold complete; cases s.mode <;> rfl
@[simp] theorem complete_devices (s : State) :
    (complete s).devices = s.devices := by unfold complete; cases s.mode <;> rfl
@[simp] theorem complete_draws (s : State) :
    (complete s).draws = s.draws := by unfold complete; cases s.mode <;> rfl
@[simp] theorem complete_port (s : State) :
    (complete s).port = s.port := by unfold complete; cases s.mode <;> rfl
@[simp] theorem complete_turns (s : State) :
    (complete s).turns = s.turns := by unfold complete; cases s.mode <;> rfl
@[simp] theorem complete_terminated (s : State) :
    (complete s).terminated = s.terminated := by unfold complete; cases s.mode <;> rfl

/-! ### terminateAction -/

@[simp] theorem terminateAction_params (s : State) :
    (terminateAction s).params = s.params := rfl
@[simp] theorem terminateAction_mode (s : State) :
    (terminateAction s).mode = s.mode := rfl
@[simp] theorem terminateAction_upc (s : State) :
    (terminateAction s).upc = s.upc := rfl
@[simp] theorem terminateAction_cmd (s : State) :
    (terminateAction s).cmd = s.cmd := rfl
@[simp] theorem terminateAction_sr (s : State) :
    (terminateAction s).sr = s.sr := rfl
@[simp] theorem terminateAction_rdata (s : State) :
    (terminateAction s).rdata = s.rdata := rfl
@[simp] theorem terminateAction_rdv (s : State) :
    (terminateAction s).rdv = s.rdv := rfl
@[simp] theorem terminateAction_aborted (s : State) :
    (terminateAction s).aborted = s.aborted := rfl
@[simp] theorem terminateAction_apend (s : State) :
    (terminateAction s).apend = s.apend := rfl
@[simp] theorem terminateAction_fault (s : State) :
    (terminateAction s).fault = s.fault := rfl
@[simp] theorem terminateAction_hist (s : State) :
    (terminateAction s).hist = s.hist := rfl
@[simp] theorem terminateAction_devices (s : State) :
    (terminateAction s).devices = s.devices := rfl
@[simp] theorem terminateAction_draws (s : State) :
    (terminateAction s).draws = s.draws + 2 := rfl
@[simp] theorem terminateAction_port (s : State) :
    (terminateAction s).port = s.port := rfl
@[simp] theorem terminateAction_turns (s : State) :
    (terminateAction s).turns = s.turns := rfl
@[simp] theorem terminateAction_terminated (s : State) :
    (terminateAction s).terminated = true := rfl

/-! ### shiftOut -/

@[simp] theorem shiftOut_params (l : Line) (s : State) :
    (shiftOut l s).params = s.params := by unfold shiftOut; split <;> rfl
@[simp] theorem shiftOut_dir (l : Line) (s : State) :
    (shiftOut l s).dir = s.dir := by unfold shiftOut; split <;> rfl
@[simp] theorem shiftOut_out (l : Line) (s : State) :
    (shiftOut l s).out = s.out := by unfold shiftOut; split <;> rfl
@[simp] theorem shiftOut_mode (l : Line) (s : State) :
    (shiftOut l s).mode = s.mode := by unfold shiftOut; split <;> rfl
@[simp] theorem shiftOut_upc (l : Line) (s : State) :
    (shiftOut l s).upc = s.upc := by unfold shiftOut; split <;> rfl
@[simp] theorem shiftOut_cmd (l : Line) (s : State) :
    (shiftOut l s).cmd = s.cmd := by unfold shiftOut; split <;> rfl
@[simp] theorem shiftOut_rdata (l : Line) (s : State) :
    (shiftOut l s).rdata = s.rdata := by unfold shiftOut; split <;> rfl
@[simp] theorem shiftOut_rdv (l : Line) (s : State) :
    (shiftOut l s).rdv = s.rdv := by unfold shiftOut; split <;> rfl
@[simp] theorem shiftOut_aborted (l : Line) (s : State) :
    (shiftOut l s).aborted = s.aborted := by unfold shiftOut; split <;> rfl
@[simp] theorem shiftOut_apend (l : Line) (s : State) :
    (shiftOut l s).apend = s.apend := by unfold shiftOut; split <;> rfl
@[simp] theorem shiftOut_fault (l : Line) (s : State) :
    (shiftOut l s).fault = s.fault := by unfold shiftOut; split <;> rfl
@[simp] theorem shiftOut_hist (l : Line) (s : State) :
    (shiftOut l s).hist = s.hist := by unfold shiftOut; split <;> rfl
@[simp] theorem shiftOut_devices (l : Line) (s : State) :
    (shiftOut l s).devices = s.devices := by unfold shiftOut; split <;> rfl
@[simp] theorem shiftOut_draws (l : Line) (s : State) :
    (shiftOut l s).draws = s.draws := by unfold shiftOut; split <;> rfl
@[simp] theorem shiftOut_port (l : Line) (s : State) :
    (shiftOut l s).port = s.port := by unfold shiftOut; split <;> rfl
@[simp] theorem shiftOut_turns (l : Line) (s : State) :
    (shiftOut l s).turns = s.turns := by unfold shiftOut; split <;> rfl
@[simp] theorem shiftOut_terminated (l : Line) (s : State) :
    (shiftOut l s).terminated = s.terminated := by unfold shiftOut; split <;> rfl

/-! ### shiftIn -/

@[simp] theorem shiftIn_params (b : Bool) (s : State) :
    (shiftIn b s).params = s.params := by unfold shiftIn; split <;> rfl
@[simp] theorem shiftIn_dir (b : Bool) (s : State) :
    (shiftIn b s).dir = s.dir := by unfold shiftIn; split <;> rfl
@[simp] theorem shiftIn_out (b : Bool) (s : State) :
    (shiftIn b s).out = s.out := by unfold shiftIn; split <;> rfl
@[simp] theorem shiftIn_mode (b : Bool) (s : State) :
    (shiftIn b s).mode = s.mode := by unfold shiftIn; split <;> rfl
@[simp] theorem shiftIn_upc (b : Bool) (s : State) :
    (shiftIn b s).upc = s.upc := by unfold shiftIn; split <;> rfl
@[simp] theorem shiftIn_cmd (b : Bool) (s : State) :
    (shiftIn b s).cmd = s.cmd := by unfold shiftIn; split <;> rfl
@[simp] theorem shiftIn_rdata (b : Bool) (s : State) :
    (shiftIn b s).rdata = s.rdata := by unfold shiftIn; split <;> rfl
@[simp] theorem shiftIn_rdv (b : Bool) (s : State) :
    (shiftIn b s).rdv = s.rdv := by unfold shiftIn; split <;> rfl
@[simp] theorem shiftIn_aborted (b : Bool) (s : State) :
    (shiftIn b s).aborted = s.aborted := by unfold shiftIn; split <;> rfl
@[simp] theorem shiftIn_apend (b : Bool) (s : State) :
    (shiftIn b s).apend = s.apend := by unfold shiftIn; split <;> rfl
@[simp] theorem shiftIn_fault (b : Bool) (s : State) :
    (shiftIn b s).fault = s.fault := by unfold shiftIn; split <;> rfl
@[simp] theorem shiftIn_hist (b : Bool) (s : State) :
    (shiftIn b s).hist = s.hist := by unfold shiftIn; split <;> rfl
@[simp] theorem shiftIn_devices (b : Bool) (s : State) :
    (shiftIn b s).devices = s.devices := by unfold shiftIn; split <;> rfl
@[simp] theorem shiftIn_draws (b : Bool) (s : State) :
    (shiftIn b s).draws = s.draws := by unfold shiftIn; split <;> rfl
@[simp] theorem shiftIn_port (b : Bool) (s : State) :
    (shiftIn b s).port = s.port := by unfold shiftIn; split <;> rfl
@[simp] theorem shiftIn_turns (b : Bool) (s : State) :
    (shiftIn b s).turns = s.turns := by unfold shiftIn; split <;> rfl
@[simp] theorem shiftIn_terminated (b : Bool) (s : State) :
    (shiftIn b s).terminated = s.terminated := by unfold shiftIn; split <;> rfl

/-! ### The updates whose effect on a field depends on the state -/

theorem regWrite_dir (r : GpioReg) (w : Word) (s : State) :
    (regWrite r w s).dir =
      match r with
      | .dirSet => s.dir ||| w
      | .dirClr => s.dir &&& ~~~w
      | .outSet => s.dir
      | .outClr => s.dir
      | .inSample => s.dir := by cases r <;> rfl
theorem regWrite_out (r : GpioReg) (w : Word) (s : State) :
    (regWrite r w s).out =
      match r with
      | .dirSet => s.out
      | .dirClr => s.out
      | .outSet => s.out ||| w
      | .outClr => s.out &&& ~~~w
      | .inSample => s.out := by cases r <;> rfl
theorem abortAction_busy {s : State} (h : s.mode = .wr ∨ s.mode = .rd) :
    abortAction s = { s with
      apend := true, upc := if s.upc < abortLimit s.mode then traceLen s.mode - 2 else s.upc } := if_pos h
theorem abortAction_quiet {s : State} (h : ¬(s.mode = .wr ∨ s.mode = .rd)) : abortAction s = s := if_neg h
theorem shiftOut_sr (l : Line) (s : State) :
    (shiftOut l s).sr = if l = .mdio ∧ s.atDataOut then s.sr.map (fun v => shiftLeft v false) else s.sr := by
  unfold shiftOut; split <;> rfl
theorem shiftIn_sr (b : Bool) (s : State) :
    (shiftIn b s).sr = if s.atDataIn then s.sr.map (fun v => shiftLeft v b) else s.sr := by
  unfold shiftIn; split <;> rfl
theorem complete_wr {s : State} (h : s.mode = .wr) :
    complete s = { s with aborted := s.aborted || s.apend, apend := false, mode := .idle, upc := 0 } := by
  unfold complete; rw [h]
theorem complete_rd {s : State} (h : s.mode = .rd) :
    complete s = { s with
      rdata := if s.apend then s.rdata else s.sr, rdv := s.rdv || !s.apend
      aborted := s.aborted || s.apend, apend := false, mode := .idle, upc := 0 } := by
  unfold complete; rw [h]
theorem complete_rst {s : State} (h : s.mode = .rst) :
    complete s = { s with apend := false, mode := .idle, upc := 0 } := by
  unfold complete; rw [h]

end Sys2Proof.Machine
end

