-- ==== Sys2Proof/Laws/Lines.lean ====
section
/-! SUPPORT. The GPIO window and the lines: what an admitted parameter set gives (R41, R124), which access each
Bus Driver operation makes (R34, R68), and what it leaves of the two lines. -/

namespace Sys2Proof.Machine

/-! ### Admitted parameters -/

theorem wf_bits_ne {p : Params} (h : p.wf = true) : p.mdioBit ≠ p.mdcBit := by
  simp only [Params.wf, Bool.and_eq_true, decide_eq_true_eq] at h
  exact h.2

theorem wf_aligned {p : Params} (h : p.wf = true) (r : GpioReg) : (gpioAddr p r).toNat % 4 = 0 := by
  simp only [Params.wf, Params.aligned, Bool.and_eq_true, decide_eq_true_eq] at h
  obtain ⟨⟨⟨⟨⟨⟨⟨h0, h1⟩, h2⟩, h3⟩, h4⟩, h5⟩, -⟩, -⟩ := h
  cases r <;> simp only [gpioAddr, Params.offset, BitVec.toNat_add] <;> omega

theorem wf_offset_inj {p : Params} (h : p.wf = true) {r r' : GpioReg} (e : p.offset r = p.offset r') :
    r = r' := by
  simp only [Params.wf, Params.distinctOffsets, Bool.and_eq_true, decide_eq_true_eq] at h
  have h := h.1.2
  simp only [List.nodup_cons, List.mem_cons, not_or, List.not_mem_nil, not_false_eq_true, and_true] at h
  cases r <;> cases r' <;> simp_all [Params.offset]

theorem gpioAddr_inj {p : Params} (h : p.wf = true) {r r' : GpioReg}
    (e : gpioAddr p r = gpioAddr p r') : r = r' :=
  wf_offset_inj h ((BitVec.add_right_inj _).mp e)

/-- An address of the window names its register and no other (R32). -/
theorem regAt_gpioAddr {p : Params} (h : p.wf = true) (r : GpioReg) : regAt p (gpioAddr p r) = some r := by
  have ne : ∀ r', r ≠ r' → gpioAddr p r ≠ gpioAddr p r' := fun r' n e => n (gpioAddr_inj h e)
  cases r <;> simp [regAt, ne]

theorem regAt_some {p : Params} {a : Word} {r : GpioReg} (h : regAt p a = some r) : a = gpioAddr p r := by
  unfold regAt at h
  split at h
  · cases h; assumption
  split at h
  · cases h; assumption
  split at h
  · cases h; assumption
  split at h
  · cases h; assumption
  split at h
  · cases h; assumption
  · cases h

/-! ### One access per operation -/

/-- The state after one write of `bitmask(L)` to a register, the event not yet emitted. -/
def written (r : GpioReg) (l : Line) (s : State) : State :=
  { regWrite r (bitmask s.params l) s with
    port := s.port ++ [.write (gpioAddr s.params r) (bitmask s.params l)] }

theorem gpioWrite_ok {s : State} (h : s.params.wf = true) {r : GpioReg} (hr : r ≠ .inSample) (w : Word) :
    gpioWrite r w s = .ok { regWrite r w s with port := s.port ++ [.write (gpioAddr s.params r) w] } := by
  unfold gpioWrite memWrite
  rw [if_neg (by decide), if_neg (by simp [wf_aligned h r]), regAt_gpioAddr h]
  cases r <;> first | rfl | exact absurd rfl hr

theorem gpioRead_ok {s : State} (h : s.params.wf = true) :
    gpioRead .inSample s = .ok (s.inWord, { s with
      draws := s.draws + 1, port := s.port ++ [.read (gpioAddr s.params .inSample)] }) := by
  unfold gpioRead memRead
  rw [if_neg (by decide), if_neg (by simp [wf_aligned h .inSample]), regAt_gpioAddr h]

theorem lineWrite_ok {s : State} (h : s.params.wf = true) {r : GpioReg} (hr : r ≠ .inSample) (l : Line) :
    lineWrite r l s =
      .ok (emit (lineEvents l (s.drv l) ((written r l s).drv l)) (written r l s)) := by
  unfold lineWrite
  rw [gpioWrite_ok h hr]
  rfl

/-- What a micro-op leaves of a state with admitted parameters; nothing for the two commands. -/
def uopResult (i : Instr) (s : State) : State :=
  match i with
  | .write _ _ _ => s
  | .read _ _ _ => s
  | .driveLow l =>
    shiftOut l (emit (lineEvents l (s.drv l) ((written .outClr l s).drv l)) (written .outClr l s))
  | .driveHigh l =>
    shiftOut l (emit (lineEvents l (s.drv l) ((written .outSet l s).drv l)) (written .outSet l s))
  | .setInput l => emit (lineEvents l (s.drv l) ((written .dirClr l s).drv l)) (written .dirClr l s)
  | .setOutput l => emit (lineEvents l (s.drv l) ((written .dirSet l s).drv l)) (written .dirSet l s)
  | .sample l =>
    shiftIn (s.inWord.getLsbD (s.params.bitOf l).val)
      (emit [.sample (s.inWord.getLsbD (s.params.bitOf l).val)]
        { s with draws := s.draws + 1, port := s.port ++ [.read (gpioAddr s.params .inSample)] })

/-- The micro-op instructions. -/
def Instr.isUop : Instr → Bool
  | .write _ _ _ => false
  | .read _ _ _ => false
  | .driveLow _ => true
  | .driveHigh _ => true
  | .setInput _ => true
  | .setOutput _ => true
  | .sample _ => true

/-- A micro-op always completes (R76). -/
theorem exec_uop {s : State} (h : s.params.wf = true) {i : Instr} (hi : Instr.isUop i = true) :
    exec i s = .next (uopResult i s) := by
  cases i with
  | write => cases hi
  | read => cases hi
  | driveLow l => simp [exec, execDriveLow, lineWrite_ok h, outcome, Except.map, uopResult]
  | driveHigh l => simp [exec, execDriveHigh, lineWrite_ok h, outcome, Except.map, uopResult]
  | setInput l => simp [exec, execSetInput, lineWrite_ok h, outcome, uopResult]
  | setOutput l => simp [exec, execSetOutput, lineWrite_ok h, outcome, uopResult]
  | sample l => simp [exec, execSample, gpioRead_ok h, outcome, Except.map, uopResult]

theorem decodeUop_isUop {u : BitVec 4} {i : Instr} (h : decodeUop u = .ok i) : Instr.isUop i = true := by
  unfold decodeUop at h
  dsimp only at h
  split at h
  · cases h; rfl
  split at h
  · cases h; rfl
  split at h
  · cases h; rfl
  split at h
  · cases h; rfl
  split at h
  · cases h; rfl
  · cases h

@[simp] theorem decodeUop_drvL (l : Line) : decodeUop (drvL l) = .ok (.driveLow l) := by cases l <;> rfl
@[simp] theorem decodeUop_drvH (l : Line) : decodeUop (drvH l) = .ok (.driveHigh l) := by cases l <;> rfl
@[simp] theorem decodeUop_setIn (l : Line) : decodeUop (setIn l) = .ok (.setInput l) := by cases l <;> rfl
@[simp] theorem decodeUop_setOut (l : Line) : decodeUop (setOut l) = .ok (.setOutput l) := by cases l <;> rfl
@[simp] theorem decodeUop_smpL (l : Line) : decodeUop (smpL l) = .ok (.sample l) := by cases l <;> rfl

/-! ### The bits of the lines -/

theorem bitmask_getLsbD (p : Params) (l : Line) (k : Nat) :
    (bitmask p l).getLsbD k = decide (k = (p.bitOf l).val) := by
  have hb := (p.bitOf l).isLt
  simp only [bitmask, BitVec.getLsbD_shiftLeft, BitVec.getLsbD_one]
  by_cases hk : k = (p.bitOf l).val
  · subst hk; simp
  · by_cases h1 : k < (p.bitOf l).val
    · simp [h1, hk]
    · have : k - (p.bitOf l).val ≠ 0 := by omega
      simp [hk, this]

theorem bitOf_inj {p : Params} (h : p.wf = true) {l l' : Line}
    (e : (p.bitOf l).val = (p.bitOf l').val) : l = l' := by
  have ne := wf_bits_ne h
  cases l <;> cases l'
  · rfl
  · exact absurd (Fin.ext e) ne
  · exact absurd (Fin.ext e.symm) ne
  · rfl

/-- `bitmask(L)` has the bit of `L` and not that of the other line (R68). -/
theorem bitmask_bitOf {p : Params} (h : p.wf = true) (l l' : Line) :
    (bitmask p l).getLsbD (p.bitOf l').val = decide (l = l') := by
  rw [bitmask_getLsbD]
  by_cases e : l = l'
  · simp [e]
  · have : (p.bitOf l').val ≠ (p.bitOf l).val := fun e' => e (bitOf_inj h e'.symm)
    simp [e, this]

@[simp] theorem written_params (r : GpioReg) (l : Line) (s : State) : (written r l s).params = s.params := by
  cases r <;> rfl
@[simp] theorem written_mode (r : GpioReg) (l : Line) (s : State) : (written r l s).mode = s.mode := by
  cases r <;> rfl
@[simp] theorem written_upc (r : GpioReg) (l : Line) (s : State) : (written r l s).upc = s.upc := by
  cases r <;> rfl
@[simp] theorem written_cmd (r : GpioReg) (l : Line) (s : State) : (written r l s).cmd = s.cmd := by
  cases r <;> rfl
@[simp] theorem written_sr (r : GpioReg) (l : Line) (s : State) : (written r l s).sr = s.sr := by
  cases r <;> rfl
@[simp] theorem written_rdata (r : GpioReg) (l : Line) (s : State) : (written r l s).rdata = s.rdata := by
  cases r <;> rfl
@[simp] theorem written_rdv (r : GpioReg) (l : Line) (s : State) : (written r l s).rdv = s.rdv := by
  cases r <;> rfl
@[simp] theorem written_aborted (r : GpioReg) (l : Line) (s : State) : (written r l s).aborted = s.aborted := by
  cases r <;> rfl
@[simp] theorem written_apend (r : GpioReg) (l : Line) (s : State) : (written r l s).apend = s.apend := by
  cases r <;> rfl
@[simp] theorem written_fault (r : GpioReg) (l : Line) (s : State) : (written r l s).fault = s.fault := by
  cases r <;> rfl
@[simp] theorem written_hist (r : GpioReg) (l : Line) (s : State) : (written r l s).hist = s.hist := by
  cases r <;> rfl
@[simp] theorem written_devices (r : GpioReg) (l : Line) (s : State) : (written r l s).devices = s.devices := by
  cases r <;> rfl
@[simp] theorem written_draws (r : GpioReg) (l : Line) (s : State) : (written r l s).draws = s.draws := by
  cases r <;> rfl
@[simp] theorem written_turns (r : GpioReg) (l : Line) (s : State) : (written r l s).turns = s.turns := by
  cases r <;> rfl
@[simp] theorem written_terminated (r : GpioReg) (l : Line) (s : State) :
    (written r l s).terminated = s.terminated := by cases r <;> rfl
@[simp] theorem written_port (r : GpioReg) (l : Line) (s : State) :
    (written r l s).port = s.port ++ [.write (gpioAddr s.params r) (bitmask s.params l)] := rfl
@[simp] theorem written_dir (r : GpioReg) (l : Line) (s : State) :
    (written r l s).dir = (regWrite r (bitmask s.params l) s).dir := rfl
@[simp] theorem written_out (r : GpioReg) (l : Line) (s : State) :
    (written r l s).out = (regWrite r (bitmask s.params l) s).out := rfl

/-- The directions after a write of `bitmask(L)` (R17). -/
theorem written_dirBit {s : State} (h : s.params.wf = true) (r : GpioReg) (l l' : Line) :
    (written r l s).dirBit l' =
      match r with
      | .dirSet => s.dirBit l' || decide (l = l')
      | .dirClr => s.dirBit l' && !decide (l = l')
      | .outSet => s.dirBit l'
      | .outClr => s.dirBit l'
      | .inSample => s.dirBit l' := by
  have hb := (s.params.bitOf l').isLt
  cases r <;>
    simp only [State.dirBit, written_dir, written_params, regWrite_dir, BitVec.getLsbD_or, BitVec.getLsbD_and,
      BitVec.getLsbD_not, bitmask_bitOf h, hb, decide_true, Bool.true_and]

/-- The latches after a write of `bitmask(L)` (R17). -/
theorem written_outBit {s : State} (h : s.params.wf = true) (r : GpioReg) (l l' : Line) :
    (written r l s).outBit l' =
      match r with
      | .dirSet => s.outBit l'
      | .dirClr => s.outBit l'
      | .outSet => s.outBit l' || decide (l = l')
      | .outClr => s.outBit l' && !decide (l = l')
      | .inSample => s.outBit l' := by
  have hb := (s.params.bitOf l').isLt
  cases r <;>
    simp only [State.outBit, written_out, written_params, regWrite_out, BitVec.getLsbD_or, BitVec.getLsbD_and,
      BitVec.getLsbD_not, bitmask_bitOf h, hb, decide_true, Bool.true_and]

@[simp] theorem emit_dirBit (es : List LineEvent) (s : State) (l : Line) : (emit es s).dirBit l = s.dirBit l := rfl
@[simp] theorem emit_outBit (es : List LineEvent) (s : State) (l : Line) : (emit es s).outBit l = s.outBit l := rfl
@[simp] theorem shiftOut_dirBit (l : Line) (s : State) (l' : Line) : (shiftOut l s).dirBit l' = s.dirBit l' := by
  simp [State.dirBit]
@[simp] theorem shiftOut_outBit (l : Line) (s : State) (l' : Line) : (shiftOut l s).outBit l' = s.outBit l' := by
  simp [State.outBit]
@[simp] theorem shiftIn_dirBit (b : Bool) (s : State) (l' : Line) : (shiftIn b s).dirBit l' = s.dirBit l' := by
  simp [State.dirBit]
@[simp] theorem shiftIn_outBit (b : Bool) (s : State) (l' : Line) : (shiftIn b s).outBit l' = s.outBit l' := by
  simp [State.outBit]

/-! ### What IN reports -/

/-- A bit of `withLevel`: the level where one is known, else the word's own bit. -/
theorem withLevel_getLsbD (w : Word) (k k' : Fin 32) (x : Drive) :
    (withLevel w k x).getLsbD k'.val = if k = k' then x.getD (w.getLsbD k'.val) else w.getLsbD k'.val := by
  have hb := k'.isLt
  have hm : (1#32 <<< k.val).getLsbD k'.val = decide (k = k') := by
    rw [BitVec.getLsbD_shiftLeft, BitVec.getLsbD_one]
    by_cases e : k = k'
    · subst e; simp
    · have e' : k.val ≠ k'.val := fun h => e (Fin.ext h)
      simp [e]; omega
  rcases x with _ | _ | _
  · simp [withLevel]
  · simp only [withLevel, BitVec.getLsbD_and, BitVec.getLsbD_not, hm, hb, decide_true, Bool.true_and]
    by_cases e : k = k' <;> simp [e]
  · simp only [withLevel, BitVec.getLsbD_or, hm]
    by_cases e : k = k' <;> simp [e]

/-- What a read of IN gives in a line's bit: the pad's level where R16 gives one, else a free bit (R75). -/
theorem inWord_getLsbD {s : State} (h : s.params.wf = true) (l : Line) :
    s.inWord.getLsbD (s.params.bitOf l).val =
      (s.padLevel l).getD ((Config.freeWord s.draws).getLsbD (s.params.bitOf l).val) := by
  have hne := wf_bits_ne h
  cases l <;> simp only [State.inWord, Params.bitOf, withLevel_getLsbD, hne, hne.symm, if_false, if_true]

end Sys2Proof.Machine
end

