-- ==== Sys2Proof/Laws/PerInstr.lean ====
section
/-! SUPPORT. Statements made for each instruction as a term: TableBits says that its word carries the fixed bits its
row of spec/opcode_table.json gives it (R53, R62). -/

namespace Sys2Proof.Laws.TableBits

/-- The word of `i` is in its row's format and agrees with the row's match under the row's mask. -/
def Statement (i : Instr) : Prop :=
  match i with
  | .write _ _ _ => ∃ w, encode i = .cmd32 w ∧ w &&& 0xF0030000#32 = 0x50020000#32
  | .read _ _ _ => ∃ w, encode i = .cmd32 w ∧ w &&& 0xF0000000#32 = 0x60000000#32
  | .driveLow _ => ∃ u, encode i = .uop4 u ∧ u &&& 0xE#4 = 0x0#4
  | .driveHigh _ => ∃ u, encode i = .uop4 u ∧ u &&& 0xE#4 = 0x2#4
  | .setInput _ => ∃ u, encode i = .uop4 u ∧ u &&& 0xE#4 = 0x4#4
  | .setOutput _ => ∃ u, encode i = .uop4 u ∧ u &&& 0xE#4 = 0x6#4
  | .sample _ => ∃ u, encode i = .uop4 u ∧ u &&& 0xE#4 = 0x8#4

theorem write (pa ra : Addr5) (data : Half) : Statement (.write pa ra data) := by
  refine ⟨_, rfl, ?_⟩
  apply BitVec.eq_of_getLsbD_eq
  intro k hk
  simp only [BitVec.getLsbD_and, BitVec.getLsbD_append, opWrite]
  interval_cases k <;> simp

theorem read (pa ra : Addr5) (ignored : BitVec 18) : Statement (.read pa ra ignored) := by
  refine ⟨_, rfl, ?_⟩
  apply BitVec.eq_of_getLsbD_eq
  intro k hk
  simp only [BitVec.getLsbD_and, BitVec.getLsbD_append, opRead]
  interval_cases k <;> simp

theorem driveLow (l : Line) : Statement (.driveLow l) := by cases l <;> exact ⟨_, rfl, rfl⟩
theorem driveHigh (l : Line) : Statement (.driveHigh l) := by cases l <;> exact ⟨_, rfl, rfl⟩
theorem setInput (l : Line) : Statement (.setInput l) := by cases l <;> exact ⟨_, rfl, rfl⟩
theorem setOutput (l : Line) : Statement (.setOutput l) := by cases l <;> exact ⟨_, rfl, rfl⟩
theorem sample (l : Line) : Statement (.sample l) := by cases l <;> exact ⟨_, rfl, rfl⟩

end Sys2Proof.Laws.TableBits
end

