-- ==== Sys2Proof/Laws/Step.lean ====
section
/-! SUPPORT. What one step can do, said once: every step is at most two of the moves below (two only for inputs
sampled in one cycle, R112). An invariant is proved move by move. -/

namespace Sys2Proof.Machine

/-! ### The end of a sequencer step -/

@[simp] theorem devicesAfter_params (s t : State) : (devicesAfter s t).params = t.params := by
  unfold devicesAfter; (repeat' split) <;> rfl
@[simp] theorem devicesAfter_dir (s t : State) : (devicesAfter s t).dir = t.dir := by
  unfold devicesAfter; (repeat' split) <;> rfl
@[simp] theorem devicesAfter_out (s t : State) : (devicesAfter s t).out = t.out := by
  unfold devicesAfter; (repeat' split) <;> rfl
@[simp] theorem devicesAfter_mode (s t : State) : (devicesAfter s t).mode = t.mode := by
  unfold devicesAfter; (repeat' split) <;> rfl
@[simp] theorem devicesAfter_upc (s t : State) : (devicesAfter s t).upc = t.upc := by
  unfold devicesAfter; (repeat' split) <;> rfl
@[simp] theorem devicesAfter_cmd (s t : State) : (devicesAfter s t).cmd = t.cmd := by
  unfold devicesAfter; (repeat' split) <;> rfl
@[simp] theorem devicesAfter_sr (s t : State) : (devicesAfter s t).sr = t.sr := by
  unfold devicesAfter; (repeat' split) <;> rfl
@[simp] theorem devicesAfter_rdata (s t : State) : (devicesAfter s t).rdata = t.rdata := by
  unfold devicesAfter; (repeat' split) <;> rfl
@[simp] theorem devicesAfter_rdv (s t : State) : (devicesAfter s t).rdv = t.rdv := by
  unfold devicesAfter; (repeat' split) <;> rfl
@[simp] theorem devicesAfter_aborted (s t : State) : (devicesAfter s t).aborted = t.aborted := by
  unfold devicesAfter; (repeat' split) <;> rfl
@[simp] theorem devicesAfter_apend (s t : State) : (devicesAfter s t).apend = t.apend := by
  unfold devicesAfter; (repeat' split) <;> rfl
@[simp] theorem devicesAfter_fault (s t : State) : (devicesAfter s t).fault = t.fault := by
  unfold devicesAfter; (repeat' split) <;> rfl
@[simp] theorem devicesAfter_hist (s t : State) : (devicesAfter s t).hist = t.hist := by
  unfold devicesAfter; (repeat' split) <;> rfl
@[simp] theorem devicesAfter_port (s t : State) : (devicesAfter s t).port = t.port := by
  unfold devicesAfter; (repeat' split) <;> rfl
@[simp] theorem devicesAfter_turns (s t : State) : (devicesAfter s t).turns = t.turns := by
  unfold devicesAfter; (repeat' split) <;> rfl
@[simp] theorem devicesAfter_terminated (s t : State) : (devicesAfter s t).terminated = t.terminated := by
  unfold devicesAfter; (repeat' split) <;> rfl

/-- The state of a sequencer step before `upc` moves on: devices and contention done (R91). -/
def settled (s t : State) : State :=
  raiseContentionIf (t.dirBit .mdio && s.devNow.isSome) (devicesAfter s t)

/-- The last two lines of R91. -/
theorem finishUop_eq (s t : State) :
    finishUop s t =
      if t.upc + 1 = traceLen t.mode then complete { settled s t with upc := t.upc + 1 }
      else { settled s t with upc := t.upc + 1 } := by
  unfold finishUop settled
  simp

@[simp] theorem settled_params (s t : State) : (settled s t).params = t.params := by simp [settled]
@[simp] theorem settled_dir (s t : State) : (settled s t).dir = t.dir := by simp [settled]
@[simp] theorem settled_out (s t : State) : (settled s t).out = t.out := by simp [settled]
@[simp] theorem settled_mode (s t : State) : (settled s t).mode = t.mode := by simp [settled]
@[simp] theorem settled_upc (s t : State) : (settled s t).upc = t.upc := by simp [settled]
@[simp] theorem settled_cmd (s t : State) : (settled s t).cmd = t.cmd := by simp [settled]
@[simp] theorem settled_sr (s t : State) : (settled s t).sr = t.sr := by simp [settled]
@[simp] theorem settled_rdata (s t : State) : (settled s t).rdata = t.rdata := by simp [settled]
@[simp] theorem settled_rdv (s t : State) : (settled s t).rdv = t.rdv := by simp [settled]
@[simp] theorem settled_aborted (s t : State) : (settled s t).aborted = t.aborted := by
  simp [settled]
@[simp] theorem settled_apend (s t : State) : (settled s t).apend = t.apend := by simp [settled]
@[simp] theorem settled_hist (s t : State) : (settled s t).hist = t.hist := by simp [settled]
@[simp] theorem settled_port (s t : State) : (settled s t).port = t.port := by simp [settled]
@[simp] theorem settled_turns (s t : State) : (settled s t).turns = t.turns := by simp [settled]
@[simp] theorem settled_terminated (s t : State) : (settled s t).terminated = t.terminated := by
  simp [settled]
theorem settled_fault (s t : State) :
    (settled s t).fault =
      { t.fault with contention := t.fault.contention || (t.dirBit .mdio && s.devNow.isSome) } := by
  simp [settled]

/-! ### A sequencer step -/

theorem sequencerTurn_idle {s : State} (h : s.mode = .idle) : sequencerTurn s = .next s := by
  simp [sequencerTurn, State.busy, h]

/-- A sequencer step that is enabled performs the micro-op of the trace and finishes (R91). -/
theorem sequencerTurn_uop {s : State} (hw : s.params.wf = true) (hb : s.busy = true)
    (hm : s.fault.mapFailed = false) {u : BitVec 4} (hu : s.nextUop = some u) {i : Instr}
    (hi : decodeUop u = .ok i) : sequencerTurn s = .next (finishUop s (uopResult i s)) := by
  simp [sequencerTurn, hb, hm, hu, hi, exec_uop hw (decodeUop_isUop hi)]

/-! ### The moves -/

/-- What a state can move to without the list of turns changing. -/
inductive Move : State → State → Prop where
  | stay (s : State) : Move s s
  | uop (s : State) (u : BitVec 4) (i : Instr) (busy : s.busy = true) (mapped : s.fault.mapFailed = false)
      (fetch : s.nextUop = some u) (dec : decodeUop u = .ok i) :
      Move s (finishUop s (uopResult i s))
  | acceptWrite (s : State) (pa ra : Addr5) (d : Half) (idle : s.mode = .idle) :
      Move s (acceptWrite pa ra d s)
  | acceptRead (s : State) (pa ra : Addr5) (idle : s.mode = .idle) :
      Move s (acceptRead pa ra s)
  | illegal (s : State) (idle : s.mode = .idle) : Move s (raiseIllegalCommand s)
  | whileBusy (s : State) (busy : s.busy = true) : Move s (raiseCmdWhileBusy s)
  | abort (s : State) : Move s (abortAction s)
  | reset (s : State) : Move s (resetAction s)
  | other (s : State) (r : GpioReg) (w : Word) (own : w &&& ownMask s.params = 0#32) : Move s (regWrite r w s)
  | terminate (s : State) : Move s (terminateAction s)

theorem busy_iff (s : State) : s.busy = true ↔ s.mode ≠ .idle := by simp [State.busy]
theorem not_busy_iff (s : State) : s.busy = false ↔ s.mode = .idle := by simp [State.busy]

theorem sequencerTurn_move {s t : State} (hw : s.params.wf = true)
    (h : sequencerTurn s = .next t) : Move s t := by
  unfold sequencerTurn at h
  split at h
  · cases h; exact .stay s
  rename_i hb
  split at h
  · cases h
  rename_i hm
  split at h
  · cases h
  rename_i u hu
  split at h
  · cases h
  rename_i i hi
  rw [exec_uop hw (decodeUop_isUop hi)] at h
  cases h
  exact .uop s u i (by simpa using hb) (by simpa using hm) hu hi

theorem execWrite_move {s t : State} {pa ra : Addr5} {d : Half}
    (h : execWrite pa ra d s = .next t) : Move s t := by
  unfold execWrite at h
  cases h
  split <;> rename_i hb
  · exact .whileBusy s hb
  · exact .acceptWrite s pa ra d ((not_busy_iff s).mp (by simpa using hb))

theorem execRead_move {s t : State} {pa ra : Addr5} {x : BitVec 18}
    (h : execRead pa ra x s = .next t) : Move s t := by
  unfold execRead at h
  cases h
  split <;> rename_i hb
  · exact .whileBusy s hb
  · exact .acceptRead s pa ra ((not_busy_iff s).mp (by simpa using hb))

/-- A command word decodes to a command. -/
theorem decodeCmd_ok {c : Word} {i : Instr} (h : decodeCmd c = .ok i) :
    i = .write (cmdPa c) (cmdRa c) (cmdData c) ∨ i = .read (cmdPa c) (cmdRa c) (cmdIgnored c) := by
  unfold decodeCmd at h
  split at h
  · cases h
  split at h
  · split at h
    · cases h; exact .inl rfl
    · cases h
  split at h
  · cases h; exact .inr rfl
  · cases h

theorem issueTurn_move {s t : State} {c : Word}
    (h : issueTurn c s = .next t) : Move s t := by
  unfold issueTurn at h
  split at h
  · rename_i i hi
    rcases decodeCmd_ok hi with rfl | rfl
    · exact execWrite_move h
    · exact execRead_move (x := cmdIgnored c) h
  · cases h
    split <;> rename_i hb
    · exact .whileBusy s hb
    · exact .illegal s ((not_busy_iff s).mp (by simpa using hb))

theorem sampledTurn_moves {s t : State} {r a : Bool} {c : Option Word}
    (h : sampledTurn r a c s = .next t) :
    ∃ m, Move s m ∧ Move m t := by
  unfold sampledTurn at h
  split at h
  · cases h; exact ⟨_, .stay s, .reset s⟩
  dsimp only at h
  split at h
  · cases h
    split
    · exact ⟨_, .stay s, .abort s⟩
    · exact ⟨_, .stay s, .stay s⟩
  · split at h
    · exact ⟨_, .abort s, issueTurn_move h⟩
    · exact ⟨_, .stay s, issueTurn_move h⟩

theorem otherAgentWrite_ok {r : GpioReg} {w : Word} {s t : State} (h : otherAgentWrite r w s = .ok t) :
    t = regWrite r w s ∧ w &&& ownMask s.params = 0#32 := by
  unfold otherAgentWrite at h
  split at h
  · cases h
  split at h
  · rename_i hw; cases h; exact ⟨rfl, hw⟩
  · cases h

theorem takeTurn_moves {x : Turn} {s t : State} (hw : s.params.wf = true) (h : takeTurn x s = .next t) :
    ∃ l m, Move { s with turns := l } m ∧ Move m t := by
  cases x with
  | issue c =>
    exact ⟨s.turns, _, .stay _, issueTurn_move h⟩
  | abort =>
    cases h
    exact ⟨s.turns, _, .stay _, .abort s⟩
  | reset => cases h; exact ⟨s.turns, _, .stay _, .reset s⟩
  | readStatus => cases h; exact ⟨s.turns, _, .stay _, .stay s⟩
  | sampled r a c =>
    obtain ⟨m, h1, h2⟩ := sampledTurn_moves h
    exact ⟨s.turns, m, h1, h2⟩
  | sequencer =>
    exact ⟨s.turns, _, .stay _, sequencerTurn_move hw h⟩
  | wait =>
    simp only [takeTurn] at h
    split at h
    · exact ⟨.wait :: s.turns, _, .stay _, sequencerTurn_move hw h⟩
    · cases h; exact ⟨s.turns, _, .stay _, .stay s⟩
  | otherAgent r w =>
    simp only [takeTurn, outcome] at h
    split at h
    · rename_i t' ht
      cases h
      obtain ⟨rfl, own⟩ := otherAgentWrite_ok ht
      exact ⟨s.turns, _, .stay _, .other s r w own⟩
    · cases h
  | terminate =>
    cases h
    exact ⟨s.turns, _, .stay _, .terminate s⟩

/-- Everything a step can do: with the list of turns at what is left of it, at most two moves. -/
theorem step_moves {s t : State} (h : step s = .next t) :
    s.params.wf = true ∧ ∃ l m, Move { s with turns := l } m ∧ Move m t := by
  unfold step at h
  split at h
  · rename_i hw
    refine ⟨hw, ?_⟩
    unfold nextTurn at h
    split at h
    · exact takeTurn_moves hw h
    · rename_i x rest hx
      obtain ⟨l, m, h1, h2⟩ := takeTurn_moves (s := { s with turns := rest }) hw h
      exact ⟨l, m, h1, h2⟩
  · cases h

/-- An invariant that does not look at the turns and that every move keeps is kept by every step. -/
theorem step_invariant {P : State → Prop} (turns : ∀ s l, P s → P { s with turns := l })
    (move : ∀ s t, s.params.wf = true → P s → Move s t → P t)
    {s t : State} (hs : P s) (h : step s = .next t) : P t := by
  obtain ⟨hw, l, m, h1, h2⟩ := step_moves h
  have hm : P m := move { s with turns := l } m hw (turns s l hs) h1
  have hwm : m.params.wf = true := by
    have : m.params = s.params := by
      cases h1 <;> first
        | rfl
        | (simp only [finishUop_eq]; rename_i i _ _ _ _; cases i <;> split <;> simp [uopResult])
        | simp
    rw [this]; exact hw
  exact move _ _ hwm hm h2

end Sys2Proof.Machine
end

