-- ==== Sys2Proof/Laws/Uop.lean ====
section
/-! SUPPORT. What a micro-op does to each line and what it leaves alone: the lemmas a proof over a trace cites. -/

namespace Sys2Proof.Machine

/-! ### The lines after a micro-op -/

theorem uopResult_driveLow_dirBit {s : State} (h : s.params.wf = true) (l l' : Line) :
    (uopResult (.driveLow l) s).dirBit l' = s.dirBit l' := by simp [uopResult, written_dirBit h]
theorem uopResult_driveLow_outBit {s : State} (h : s.params.wf = true) (l l' : Line) :
    (uopResult (.driveLow l) s).outBit l' = (s.outBit l' && !decide (l = l')) := by simp [uopResult, written_outBit h]
theorem uopResult_driveHigh_dirBit {s : State} (h : s.params.wf = true) (l l' : Line) :
    (uopResult (.driveHigh l) s).dirBit l' = s.dirBit l' := by simp [uopResult, written_dirBit h]
theorem uopResult_driveHigh_outBit {s : State} (h : s.params.wf = true) (l l' : Line) :
    (uopResult (.driveHigh l) s).outBit l' = (s.outBit l' || decide (l = l')) := by simp [uopResult, written_outBit h]
theorem uopResult_setInput_dirBit {s : State} (h : s.params.wf = true) (l l' : Line) :
    (uopResult (.setInput l) s).dirBit l' = (s.dirBit l' && !decide (l = l')) := by simp [uopResult, written_dirBit h]
theorem uopResult_setInput_outBit {s : State} (h : s.params.wf = true) (l l' : Line) :
    (uopResult (.setInput l) s).outBit l' = s.outBit l' := by simp [uopResult, written_outBit h]
theorem uopResult_setOutput_dirBit {s : State} (h : s.params.wf = true) (l l' : Line) :
    (uopResult (.setOutput l) s).dirBit l' = (s.dirBit l' || decide (l = l')) := by simp [uopResult, written_dirBit h]
theorem uopResult_setOutput_outBit {s : State} (h : s.params.wf = true) (l l' : Line) :
    (uopResult (.setOutput l) s).outBit l' = s.outBit l' := by simp [uopResult, written_outBit h]
theorem uopResult_sample_dirBit (s : State) (l l' : Line) :
    (uopResult (.sample l) s).dirBit l' = s.dirBit l' := by simp [uopResult]; rfl
theorem uopResult_sample_outBit (s : State) (l l' : Line) :
    (uopResult (.sample l) s).outBit l' = s.outBit l' := by simp [uopResult]; rfl

/-! ### The frame of a micro-op -/

@[simp] theorem uopResult_params (i : Instr) (s : State) : (uopResult i s).params = s.params := by
  cases i <;> simp [uopResult]
@[simp] theorem uopResult_mode (i : Instr) (s : State) : (uopResult i s).mode = s.mode := by
  cases i <;> simp [uopResult]
@[simp] theorem uopResult_upc (i : Instr) (s : State) : (uopResult i s).upc = s.upc := by
  cases i <;> simp [uopResult]
@[simp] theorem uopResult_cmd (i : Instr) (s : State) : (uopResult i s).cmd = s.cmd := by
  cases i <;> simp [uopResult]
@[simp] theorem uopResult_rdata (i : Instr) (s : State) : (uopResult i s).rdata = s.rdata := by
  cases i <;> simp [uopResult]
@[simp] theorem uopResult_rdv (i : Instr) (s : State) : (uopResult i s).rdv = s.rdv := by
  cases i <;> simp [uopResult]
@[simp] theorem uopResult_aborted (i : Instr) (s : State) : (uopResult i s).aborted = s.aborted := by
  cases i <;> simp [uopResult]
@[simp] theorem uopResult_apend (i : Instr) (s : State) : (uopResult i s).apend = s.apend := by
  cases i <;> simp [uopResult]
@[simp] theorem uopResult_fault (i : Instr) (s : State) : (uopResult i s).fault = s.fault := by
  cases i <;> simp [uopResult]
@[simp] theorem uopResult_devices (i : Instr) (s : State) : (uopResult i s).devices = s.devices := by
  cases i <;> simp [uopResult]
@[simp] theorem uopResult_turns (i : Instr) (s : State) : (uopResult i s).turns = s.turns := by
  cases i <;> simp [uopResult]
@[simp] theorem uopResult_terminated (i : Instr) (s : State) : (uopResult i s).terminated = s.terminated := by
  cases i <;> simp [uopResult]

theorem uopResult_sr_some {s : State} (i : Instr) (h : s.sr ≠ none) : (uopResult i s).sr ≠ none := by
  cases i <;> simp [uopResult, shiftOut_sr, shiftIn_sr] <;> (try split) <;> simp_all

/-! ### The lines after the rest of a step -/

@[simp] theorem settled_dirBit (s t : State) (l : Line) : (settled s t).dirBit l = t.dirBit l := by
  simp [State.dirBit]
@[simp] theorem settled_outBit (s t : State) (l : Line) : (settled s t).outBit l = t.outBit l := by
  simp [State.outBit]
@[simp] theorem complete_dirBit (s : State) (l : Line) : (complete s).dirBit l = s.dirBit l := by
  simp [State.dirBit]
@[simp] theorem complete_outBit (s : State) (l : Line) : (complete s).outBit l = s.outBit l := by
  simp [State.outBit]

theorem finishUop_dirBit (s t : State) (l : Line) : (finishUop s t).dirBit l = t.dirBit l := by
  rw [finishUop_eq]
  split
  · rw [complete_dirBit]; exact settled_dirBit s t l
  · exact settled_dirBit s t l
theorem finishUop_outBit (s t : State) (l : Line) : (finishUop s t).outBit l = t.outBit l := by
  rw [finishUop_eq]
  split
  · rw [complete_outBit]; exact settled_outBit s t l
  · exact settled_outBit s t l

/-! ### The bits that are not the block's -/

theorem ownMask_bitOf (p : Params) (l : Line) : (ownMask p).getLsbD (p.bitOf l).val = true := by
  cases l <;>
    simp only [ownMask, BitVec.getLsbD_or, bitmask_getLsbD, decide_true, Bool.true_or, Bool.or_true]

/-- A word another agent may write names neither line. -/
theorem own_bit_clear {p : Params} {w : Word} (h : w &&& ownMask p = 0#32) (l : Line) :
    w.getLsbD (p.bitOf l).val = false := by
  have h2 : (w &&& ownMask p).getLsbD (p.bitOf l).val = false := by rw [h]; simp
  rwa [BitVec.getLsbD_and, ownMask_bitOf, Bool.and_true] at h2

theorem regWrite_other_dirBit {s : State} {r : GpioReg} {w : Word} (h : w &&& ownMask s.params = 0#32)
    (l : Line) : (regWrite r w s).dirBit l = s.dirBit l := by
  have hw := own_bit_clear h l
  have hb := (s.params.bitOf l).isLt
  cases r <;> simp only [State.dirBit, regWrite_dir, regWrite_params, BitVec.getLsbD_or, BitVec.getLsbD_and,
    BitVec.getLsbD_not, hw, hb, decide_true, Bool.not_false, Bool.and_true, Bool.or_false]
theorem regWrite_other_outBit {s : State} {r : GpioReg} {w : Word} (h : w &&& ownMask s.params = 0#32)
    (l : Line) : (regWrite r w s).outBit l = s.outBit l := by
  have hw := own_bit_clear h l
  have hb := (s.params.bitOf l).isLt
  cases r <;> simp only [State.outBit, regWrite_out, regWrite_params, BitVec.getLsbD_or, BitVec.getLsbD_and,
    BitVec.getLsbD_not, hw, hb, decide_true, Bool.not_false, Bool.and_true, Bool.or_false]

end Sys2Proof.Machine
end

