-- ==== Sys2Proof/Tests/Slice0.lean ====
section
/-! SUPPORT. Tests of the model: well-formedness, the words and vectors of spec/95_test_vectors.md, and for every
obligation with hypotheses a state that meets them. Expected values are the spec's, not the model's. -/

namespace Sys2Proof.Tests

open Sys2Proof.Machine

/-! ## Well-formedness: an ill-formed term for each check -/

theorem test_stmt_pa_out_of_range : Stmt.wf (.wr 32 0 0) = false ∧ stmtTurn (.wr 32 0 0) = none := by decide
theorem test_stmt_ra_out_of_range : Stmt.wf (.wr 0 32 0) = false ∧ stmtTurn (.wr 0 32 0) = none := by decide
theorem test_stmt_data_out_of_range : Stmt.wf (.wr 0 0 65536) = false ∧ stmtTurn (.wr 0 0 65536) = none := by
  decide
theorem test_stmt_rd_pa_out_of_range : Stmt.wf (.rd 32 0) = false ∧ stmtTurn (.rd 32 0) = none := by decide
theorem test_stmt_rd_ra_out_of_range : Stmt.wf (.rd 0 32) = false ∧ stmtTurn (.rd 0 32) = none := by decide
theorem test_stmt_in_range : Stmt.wf (.wr 31 31 65535) = true ∧ Stmt.wf (.rd 31 31) = true := by decide
theorem test_params_illustrative_wf : Params.illustrative.wf = true := by decide
theorem test_params_base_misaligned : Params.wf { Params.illustrative with gpioBase := 2 } = false := by decide
theorem test_params_dirSet_misaligned : Params.wf { Params.illustrative with offDirSet := 0x21 } = false := by
  decide
theorem test_params_dirClr_misaligned : Params.wf { Params.illustrative with offDirClr := 0x22 } = false := by
  decide
theorem test_params_outSet_misaligned : Params.wf { Params.illustrative with offOutSet := 0x23 } = false := by
  decide
theorem test_params_outClr_misaligned : Params.wf { Params.illustrative with offOutClr := 0x21 } = false := by
  decide
theorem test_params_in_misaligned : Params.wf { Params.illustrative with offIn := 0x12 } = false := by decide
theorem test_params_equal_offsets : Params.wf { Params.illustrative with offIn := 0xC } = false := by decide
theorem test_params_equal_bits : Params.wf { Params.illustrative with mdcBit := 5 } = false := by decide

/-! ## Decoding: words written out from the encodings of R53 and R62 -/

theorem test_decode_write :
    decode (.cmd32 0b0101_00010_00101_10_1010101111001101#32) = .ok (.write 2 5 0xABCD) := by decide
theorem test_decode_read : decode (.cmd32 0b0110_11000_00011_000001001000110100#32) = .ok (.read 0x18 3 0x1234) := by
  decide
theorem test_decode_driveLow : decode (.uop4 0b0000#4) = .ok (.driveLow .mdio) ∧
    decode (.uop4 0b0001#4) = .ok (.driveLow .mdc) := by decide
theorem test_decode_driveHigh : decode (.uop4 0b0010#4) = .ok (.driveHigh .mdio) ∧
    decode (.uop4 0b0011#4) = .ok (.driveHigh .mdc) := by decide
theorem test_decode_setInput : decode (.uop4 0b0100#4) = .ok (.setInput .mdio) ∧
    decode (.uop4 0b0101#4) = .ok (.setInput .mdc) := by decide
theorem test_decode_setOutput : decode (.uop4 0b0110#4) = .ok (.setOutput .mdio) ∧
    decode (.uop4 0b0111#4) = .ok (.setOutput .mdc) := by decide
theorem test_decode_sample : decode (.uop4 0b1000#4) = .ok (.sample .mdio) ∧
    decode (.uop4 0b1001#4) = .ok (.sample .mdc) := by decide
/-- Section 2.1: codes 0xA to 0xF name nothing. -/
theorem test_decode_reserved_uops : ∀ u : BitVec 4, 10 ≤ u.toNat → decode (.uop4 u) = .error .reservedKind := by
  decide
/-- Section 2.1: the illegal words, each with its reason. -/
theorem test_decode_illegal_words :
    [0x00000000, 0x90000000, 0xE0000000, 0xFFFFFFFF].map decodeCmd = List.replicate 4 (.error .badStart) ∧
    [0x40000000, 0x70000000].map decodeCmd = List.replicate 2 (.error .badOpcode) ∧
    [0x50000000, 0x50010000, 0x50030000].map decodeCmd = List.replicate 3 (.error .badTurnaround) := by decide
/-- Section 2.1: what the host encoder makes of the statements. -/
theorem test_host_encoder :
    hostWriteWord 1 0 0x1140 = some 0x50821140 ∧ hostWriteWord 31 31 0xFFFF = some 0x5FFEFFFF ∧
    hostReadWord 0x18 3 = some 0x6C0C0000 ∧ hostReadWord 31 31 = some 0x6FFC0000 := by decide
/-- Section 2.1, the header column. -/
theorem test_headers :
    header ⟨opWrite, 1, 0, some 0x1140⟩ = 0x1420 ∧ header ⟨opRead, 2, 5, none⟩ = 0x1845 ∧
    header ⟨opRead, 0x18, 3, none⟩ = 0x1B03 := by decide
/-- The numbering of spec/opcode_table.json. -/
theorem test_decodeTableWord :
    decodeTableWord 32 0x50821140 = some (.write 1 0 0x1140) ∧ decodeTableWord 4 0x8 = some (.sample .mdio) ∧
    decodeTableWord 8 0x7 = some (.setOutput .mdc) ∧ decodeTableWord 8 0xA = none ∧
    decodeTableWord 32 0x70000000 = none := by decide

/-! ## States the tests start from -/

/-- An idle block with the example bits of section 2 (MDIO 5, MDC 4). -/
def block (dir out : Word) (devices : Devices) : State :=
  { State.launch Params.illustrative true dir out devices [] with mode := .idle }

/-- The idle block, lines released, no device driving. -/
def idle : State := block 0 0 (.oracle [])

def wrCmd : Cmd := ⟨opWrite, 1, 0, some 0x1140⟩
def rdCmd : Cmd := ⟨opRead, 0x18, 3, none⟩

/-- A command that has run undisturbed up to `n`. -/
def runAt (m : Mode) (c : Cmd) (n : Nat) (devices : Devices) : State :=
  { block ((if 3 ≤ n then 0x10 else 0) ||| (if hostOwnsMdio m n then 0x20 else 0))
      ((if mdcHigh m n then 0x10 else 0) ||| (if lastHostBit m c n = some true then 0x20 else 0)) devices with
    mode := m, upc := n, cmd := some c, sr := some (c.wdata.getD 0 <<< dataBitsDone .wr n) }

def wrAt (n : Nat) : State := runAt .wr wrCmd n (.oracle [])
def rdAt (n : Nat) : State := runAt .rd rdCmd n (.oracle [])

/-- The state an outcome goes on in. -/
def after : Host.Outcome State Fault Refusal → Option State
  | .next t => some t
  | .fault _ => none
  | .refused _ => none

/-- What section 2.2 tabulates of a micro-op: DIR, OUT, the events, the accesses. -/
def seen (o : Host.Outcome State Fault Refusal) : Option (Word × Word × List LineEvent × List GpioAccess) :=
  (after o).map fun t => (t.dir, t.out, t.hist, t.port)

/-! ## Bus Driver vectors (section 2.2) -/

theorem test_B1_driveHigh_mdc : seen (exec (.driveHigh .mdc) (block 0x10 0 (.oracle []))) =
    some (0x10, 0x10, [.rise], [.write 0x8 0x10]) := by decide
theorem test_B5_driveHigh_released : seen (exec (.driveHigh .mdio) (block 0 0 (.oracle []))) =
    some (0, 0x20, [], [.write 0x8 0x20]) := by decide
theorem test_B3_driveLow_mdc : seen (exec (.driveLow .mdc) (block 0x10 0x10 (.oracle []))) =
    some (0x10, 0, [.fall], [.write 0xC 0x10]) := by decide
theorem test_B4_driveLow_mdio : seen (exec (.driveLow .mdio) (block 0x20 0x20 (.oracle []))) =
    some (0x20, 0, [.drive false], [.write 0xC 0x20]) := by decide
theorem test_B6_setOutput_mdio : seen (exec (.setOutput .mdio) (block 0 0x20 (.oracle []))) =
    some (0x20, 0x20, [.take .mdio true], [.write 0x0 0x20]) := by decide
theorem test_B8_setOutput_stale_latch : seen (exec (.setOutput .mdc) (block 0 0x10 (.oracle []))) =
    some (0x10, 0x10, [.take .mdc true], [.write 0x0 0x10]) := by decide
theorem test_B10_setInput_released : seen (exec (.setInput .mdio) (block 0 0 (.oracle []))) =
    some (0, 0, [], [.write 0x4 0x20]) := by decide
theorem test_B11_setInput_mdc : seen (exec (.setInput .mdc) (block 0x10 0x10 (.oracle []))) =
    some (0, 0x10, [.release .mdc], [.write 0x4 0x10]) := by decide

/-- A SAMPLE on a line whose level R16 gives. -/
theorem sample_seen {s : State} (h : s.params.wf = true) {b : Bool} (hb : s.padLevel .mdio = some b) :
    ∃ t, exec (.sample .mdio) s = .next t ∧ t.hist = s.hist ++ [.sample b] ∧
      t.port = s.port ++ [.read (s.params.gpioBase + s.params.offIn)] ∧ t.dir = s.dir ∧ t.out = s.out := by
  refine ⟨_, exec_uop h rfl, ?_, ?_, by simp [uopResult], by simp [uopResult]⟩
  · have := inWord_getLsbD h .mdio
    rw [hb] at this
    simp only [Option.getD_some] at this
    simp only [uopResult, shiftIn_hist, emit_hist, this]
  · simp [uopResult, gpioAddr, Params.offset]

theorem test_B12_sample_device_drives_1 :
    ∃ t, exec (.sample .mdio) (block 0 0 (.oracle [some true])) = .next t ∧ t.hist = [.sample true] ∧
      t.port = [.read 0x10] ∧ t.dir = 0 ∧ t.out = 0 := sample_seen (by decide) (by decide)
theorem test_B14_sample_idle_level :
    ∃ t, exec (.sample .mdio)
        { block 0 0 (.oracle [none]) with params := { Params.illustrative with mdioIdle := some true } } =
        .next t ∧ t.hist = [.sample true] ∧ t.port = [.read 0x10] ∧ t.dir = 0 ∧ t.out = 0 :=
  sample_seen (by decide) (by decide)

/-- B16: a device drives MDIO while the host does: the step's own effect, and Contention. -/
theorem test_B16_contention :
    (after (sequencerTurn (runAt .wr wrCmd 5 (.oracle [some false])))).map
      (fun t => (t.fault.code, t.hist, t.upc)) = some (0b0100#4, [.rise], 6) := by decide

/-! ## Accept vectors (section 2.5) -/

theorem test_write_accepted :
    let o := after (exec (.write 1 0 0x1140) { idle with rdv := true, rdata := some 0x1234 })
    o.map (fun t => (t.mode, t.upc, t.sr, t.rdv)) = some (.wr, 0, some 0x1140, false) ∧
    o.map (fun t => (t.aborted, t.rdata)) = some (false, some 0x1234) := by decide
theorem test_write_while_busy :
    (after (exec (.write 1 0 0x1140) (wrAt 10))).map (fun t => (t.mode, t.upc, t.fault.code)) =
      some (.wr, 10, 0b0010#4) := by decide
theorem test_read_accepted :
    (after (exec (.read 1 0 0) { idle with aborted := true })).map
      (fun t => (t.mode, t.upc, t.sr, t.rdv, t.aborted)) = some (.rd, 0, some 0, false, false) := by decide
theorem test_read_while_resetting :
    (after (exec (.read 1 0 0) { State.reset with upc := 1 })).map (fun t => (t.mode, t.upc, t.fault.code)) =
      some (.rst, 1, 0b0010#4) := by decide
theorem test_illegal_word_idle :
    (after (issueTurn 0x70000000 idle)).map (fun t => (t.mode, t.fault.code)) = some (.idle, 0b0001#4) := by decide
/-- R112: an illegal word while busy is CmdWhileBusy only. -/
theorem test_illegal_word_busy :
    (after (issueTurn 0x00000000 (wrAt 10))).map (fun t => (t.mode, t.fault.code)) = some (.wr, 0b0010#4) := by
  decide

/-! ## Abort, reset, device (sections 2.6, 2.7, 2.4) -/

theorem test_abort_write_195_196 :
    ((abortAction (wrAt 195)).upc, (abortAction (wrAt 195)).apend) = (196, true) ∧
    ((abortAction (wrAt 196)).upc, (abortAction (wrAt 196)).apend) = (196, true) ∧
    (abortAction (wrAt 197)).upc = 197 := by decide
theorem test_abort_read_141_142 :
    (abortAction (rdAt 141)).upc = 193 ∧ (abortAction (rdAt 142)).upc = 142 ∧ (abortAction (rdAt 194)).upc = 194 := by
  decide
theorem test_reset_keeps_faults_and_latches :
    (fun t : State => (t.mode, t.upc, t.rdata, t.fault.code, t.dir, t.out))
      (resetAction (raiseCmdWhileBusy (wrAt 51))) = (.rst, 0, none, 0b0010#4, 0x30, 0x30) := by decide
/-- RDATA keeps its value over an accept, but rdata has none while RDV = 0 (R22, 93 I14). -/
theorem test_status_rdata_only_while_rdv :
    (State.status { idle with rdata := some 0x1234 }).rdata = none ∧
    (State.status { idle with rdata := some 0x1234, rdv := true }).rdata = some 0x1234 := by decide
/-- R134, R114: after a termination the host's actions and the sequencer go on. -/
theorem test_after_termination :
    let s := terminateAction (wrAt 50)
    (after (step { s with turns := [.issue 0x60800000] })).map (·.fault.code) = some 0b0010#4 ∧
    (after (step { s with turns := [.abort] })).map (·.upc) = some 196 ∧
    (after (step s)).map (·.upc) = some 51 ∧
    (after (step { s with turns := [.reset] })).map (fun t => (t.mode, t.terminated)) = some (.rst, false) := by decide
/-- Section 2.4: slot 62 of the data of 0x0201 is a 1, launched at its rising edge and dropped at its fall. -/
theorem test_device_last_data_bit :
    let d : RefDevice := ⟨[0x18], [(regKey 0x18 3, 0x0201)], .readTail 0x18 3, 32, 30, [], some false⟩
    (d.rise true).drive = some true ∧ (d.rise true).fall.drive = none ∧ (d.rise true).fall.phase = .hunting := by
  decide
theorem test_regs_canonical :
    regPut [(3, 7#16)] 1 5#16 = [(1, 5#16), (3, 7#16)] ∧ regPut [(3, 7#16)] 3 0#16 = [] ∧
    RegFile.wf [(3, 7#16), (3, 7#16)] = false ∧ RegFile.wf [(3, 0#16)] = false := by decide

/-! ## Placing an instruction -/

/-- The first step after reset runs the instruction placed, for one word of each row of the opcode table. -/
theorem test_placed_commands_run :
    (after (step (State.reset.withFetchWord 32 0x50020000))).map (·.mode) = some .wr ∧
    (after (step (State.reset.withFetchWord 32 0x60000000))).map (·.mode) = some .rd := by decide
theorem test_placed_uops_run :
    [0x0, 0x2, 0x4, 0x6].map (fun w => seen (step (State.reset.withFetchWord 4 w))) =
      [some (0, 0, [], [.write 0xC 0x20]), some (0, 0x20, [], [.write 0x8 0x20]),
       some (0, 0, [], [.write 0x4 0x20]), some (0x20, 0, [.take .mdio false], [.write 0x0 0x20])] ∧
    (after (step (State.reset.withFetchWord 4 0x8))).map (·.port) = some [.read 0x10] := by decide

/-! ## States that meet the invariant -/

/-- `LineProfile` as a check. -/
def profileOk (s : State) (c : Cmd) : Bool :=
  decide (s.dirBit .mdc = true ↔ 3 ≤ s.upc) && decide (s.dirBit .mdio = hostOwnsMdio s.mode s.upc) &&
  decide (1 ≤ s.upc → s.outBit .mdc = mdcHigh s.mode s.upc) &&
  decide (2 ≤ s.upc → lastHostBit s.mode c s.upc = some (s.outBit .mdio))

theorem profile_of_ok {s : State} {c : Cmd} (h : profileOk s c = true) : LineProfile s c := by
  simp only [profileOk, Bool.and_eq_true, decide_eq_true_eq] at h
  exact ⟨h.1.1.1, h.1.1.2, h.1.2, h.2⟩

theorem inv_wrAt {n : Nat} (hn : n < 198) (hp : profileOk (wrAt n) wrCmd = true)
    (hr : n = 197 → (wrAt n).dirBit .mdio = false) : Inv (wrAt n) where
  params := by change Params.illustrative.wf = true; decide
  position _ := hn
  idleUpc h := by cases h
  writeCmd _ := ⟨1, 0, 0x1140, rfl, fun _ => rfl⟩
  readCmd h := by cases h
  shifter _ h := by cases h
  apendBusy h := by cases h
  apendPast h := by cases h
  rdvIdle h := by cases h
  abortedIdle h := by cases h
  idleReleased _ h := by cases h
  releaseHalfDone _ _ h := hr (by change n + 1 = 198 at h; omega)
  lines _ c hc _ _ := by cases hc; exact profile_of_ok hp

theorem inv_rdAt {n : Nat} (hn : n < 195) (hp : profileOk (rdAt n) rdCmd = true)
    (hr : n = 194 → (rdAt n).dirBit .mdio = false) : Inv (rdAt n) where
  params := by change Params.illustrative.wf = true; decide
  position _ := hn
  idleUpc h := by cases h
  writeCmd h := by cases h
  readCmd _ := ⟨0x18, 3, rfl⟩
  shifter _ h := by cases h
  apendBusy h := by cases h
  apendPast h := by cases h
  rdvIdle h := by cases h
  abortedIdle h := by cases h
  idleReleased _ h := by cases h
  releaseHalfDone _ _ h := hr (by change n + 1 = 195 at h; omega)
  lines _ c hc _ _ := by cases hc; exact profile_of_ok hp

theorem inv_idle : Inv idle where
  params := by decide
  position h := absurd rfl h
  idleUpc _ := rfl
  writeCmd h := by cases h
  readCmd h := by cases h
  shifter h := by rcases h with h | h <;> cases h
  apendBusy h := by cases h
  apendPast h := by cases h
  rdvIdle h := by cases h
  abortedIdle h := by cases h
  idleReleased _ _ := by decide
  releaseHalfDone _ h := absurd rfl h
  lines _ c hc := by cases hc

theorem test_inv_write_positions : Inv (wrAt 0) ∧ Inv (wrAt 3) ∧ Inv (wrAt 148) ∧ Inv (wrAt 193) ∧ Inv (wrAt 197) :=
  ⟨inv_wrAt (by decide) (by decide) (by decide), inv_wrAt (by decide) (by decide) (by decide),
   inv_wrAt (by decide) (by decide) (by decide), inv_wrAt (by decide) (by decide) (by decide),
   inv_wrAt (by decide) (by decide) (by decide)⟩
theorem test_inv_read_positions : Inv (rdAt 0) ∧ Inv (rdAt 142) ∧ Inv (rdAt 146) ∧ Inv (rdAt 191) ∧ Inv (rdAt 194) :=
  ⟨inv_rdAt (by decide) (by decide) (by decide), inv_rdAt (by decide) (by decide) (by decide),
   inv_rdAt (by decide) (by decide) (by decide), inv_rdAt (by decide) (by decide) (by decide),
   inv_rdAt (by decide) (by decide) (by decide)⟩

/-- An aborted WRITE: the Abort came at `n`. -/
def abortedAt (n : Nat) : State := abortAction (wrAt n)

theorem inv_abortedAt {n : Nat} (hn : n < 196) : Inv (abortedAt n) := by
  have e : abortedAt n = { wrAt n with apend := true, upc := 196 } := by
    simp only [abortedAt, abortAction, wrAt, runAt, traceLen, abortLimit]
    simp [hn]
  rw [e]
  exact {
    params := by change Params.illustrative.wf = true; decide
    position := fun _ => by change 196 < 198; decide
    idleUpc := fun h => by cases h
    writeCmd := fun _ => ⟨1, 0, 0x1140, rfl, fun h => absurd h (Nat.lt_irrefl 196)⟩
    readCmd := fun h => by cases h
    shifter := fun _ h => by cases h
    apendBusy := fun _ => .inl rfl
    apendPast := fun _ => Nat.le_refl 196
    rdvIdle := fun h => by cases h
    abortedIdle := fun h => by cases h
    idleReleased := fun _ h => by cases h
    releaseHalfDone := fun _ _ h => by change 196 + 1 = 198 at h; omega
    lines := fun _ _ _ _ h => by
      rcases h with h | h
      · exact absurd h (Nat.lt_irrefl 198)
      · cases h }

/-! ## Witnesses: for every obligation with hypotheses, something that meets them -/

theorem witness_DecodeOfEncodeIsTheInstruction : Instr.wf (.write 31 31 0xFFFF) = true := by decide
theorem witness_EncodeOfDecodeIsTheWord : decode (.cmd32 0x6FFFFFFF#32) = .ok (.read 31 31 0x3FFFF) ∧
    decode (.uop4 0x9#4) = .ok (.sample .mdc) := by decide
theorem witness_CommandWordsAreTheTwoRows :
    0x5FFEFFFF#32 &&& 0xF0030000#32 = 0x50020000#32 ∧ 0x6C0C1234#32 &&& 0xF0000000#32 = 0x60000000#32 ∧
    0x50030000#32 &&& 0xF0030000#32 ≠ 0x50020000#32 ∧ 0x50030000#32 &&& 0xF0000000#32 ≠ 0x60000000#32 := by decide
theorem witness_HostEncoderRefusesAndNeverTruncates :
    (31 < 32 ∧ 31 < 32 ∧ 65535 < 65536) ∧ (32 ≤ 32 ∨ 32 ≤ 0 ∨ 65536 ≤ 0) ∧ (32 ≤ 0 ∨ 32 ≤ 32 ∨ 65536 ≤ 0) ∧
    (32 ≤ 0 ∨ 32 ≤ 0 ∨ 65536 ≤ 65536) := by decide
theorem witness_HeaderIsTheCommandsUpperBits :
    encode (.write 1 0 0x1140) = .cmd32 0x50821140#32 ∧ encode (.read 0x18 3 0) = .cmd32 0x6C0C0000#32 ∧
    32 ≤ 45 ∧ 45 ≤ 45 := by decide
theorem witness_WriteTraceFollowsTheCommandWord :
    encode (.write 1 0 0x1140) = .cmd32 0x50821140#32 ∧ 63 < 64 ∧ 198 ≤ 198 := by decide
theorem witness_ReadTraceFollowsTheHeader :
    0x1B03#14 = 0x1800#14 ||| ((0x18#5).setWidth 14 <<< 5) ||| (0x03#5).setWidth 14 ∧ 45 < 46 ∧ 15 < 16 ∧
    195 ≤ 195 := by decide
theorem witness_TracesHoldOnlyAdmittedMicroOps :
    trace .wr (some wrCmd) 197 = some 0x5#4 ∧ trace .rd (some rdCmd) 146 = some 0x8#4 ∧
    trace .rst none 1 = some 0x5#4 := by decide
theorem witness_SlotsLieInTheirPhases :
    slotOf .wr 195 = some 63 ∧ slotOf .wr 4 = some 0 ∧ slotOf .rd 192 = some 62 ∧ slotOf .rd 142 = some 46 ∧
    197 < 198 ∧ 194 < 195 := by decide
theorem witness_DriveHighSetsTheLatch :
    let s := block 0x10 0x20 (.oracle [])
    s.params.wf = true ∧ s.dirBit .mdc = true ∧ s.outBit .mdc = false ∧ s.dirBit .mdio = false ∧
    s.outBit .mdio = true := by decide
theorem witness_DriveLowClearsTheLatch :
    let s := block 0x30 0x30 (.oracle [])
    s.params.wf = true ∧ s.dirBit .mdc = true ∧ s.outBit .mdc = true ∧ s.dirBit .mdio = true ∧
    s.outBit .mdio = true ∧ idle.params.wf = true ∧ idle.dirBit .mdio = false ∧ idle.outBit .mdio = false := by
  decide
theorem witness_SetOutputTakesTheLine :
    let s := block 0x10 0x20 (.oracle [])
    s.params.wf = true ∧ s.dirBit .mdio = false ∧ s.dirBit .mdc = true := by decide
theorem witness_SetInputReleasesTheLine :
    let s := block 0x20 0x20 (.oracle [])
    s.params.wf = true ∧ s.dirBit .mdio = true ∧ s.dirBit .mdc = false := by decide
theorem witness_SampleReadsTheWire :
    let s := block 0 0 (.oracle [some true])
    s.params.wf = true ∧ s.dirBit .mdio = false ∧ s.wire .mdio = some true := by decide
theorem witness_LineOperationsLeaveTheRest :
    idle.params.wf = true ∧ (∃ t, exec (.setOutput .mdio) idle = .next t) ∧
    ∃ t, exec (.driveLow .mdc) idle = .next t := ⟨by decide, ⟨_, rfl⟩, ⟨_, rfl⟩⟩
theorem witness_SampleLeavesTheRest :
    (∃ t, exec (.sample .mdc) idle = .next t) ∧ idle.atDataIn = false := ⟨⟨_, exec_uop (by decide) rfl⟩, by decide⟩
theorem witness_EachLineOperationEmitsItsEvent :
    (let s := block 0x30 0x20 (.oracle [])
     s.params.wf = true ∧ s.drv .mdc = some false ∧
       (after (exec (.driveHigh .mdc) s)).map (·.drv .mdc) = some (some true) ∧
       s.drv .mdio = some true ∧ (after (exec (.driveLow .mdio) s)).map (·.drv .mdio) = some (some false) ∧
       (after (exec (.setInput .mdio) s)).map (·.drv .mdio) = some none) ∧
    (let s := block 0x10 0x30 (.oracle [])
     s.params.wf = true ∧ s.drv .mdc = some true ∧
       (after (exec (.driveLow .mdc) s)).map (·.drv .mdc) = some (some false) ∧
       s.drv .mdio = none ∧ (after (exec (.setOutput .mdio) s)).map (·.drv .mdio) = some (some true) ∧
       (after (exec (.driveHigh .mdio) s)).map (·.drv .mdio) = some none) := by decide
theorem witness_WireResolution :
    (block 0x10 0x10 (.oracle [])).dirBit .mdc = true ∧ (block 0 0 (.oracle [])).dirBit .mdc = false ∧
    (let s := block 0x20 0 (.oracle [none]); s.dirBit .mdio = true ∧ s.devNow = none) ∧
    (let s := block 0 0 (.oracle [some false]); s.dirBit .mdio = false ∧ s.devNow = some false) ∧
    (let s := block 0 0 (.oracle [none]); s.dirBit .mdio = false ∧ s.devNow = none) ∧
    (let s := block 0x20 0 (.oracle [some true]); s.dirBit .mdio = true ∧ s.devNow ≠ none) := by decide
theorem witness_IssueAcceptsOrRaises :
    (let s := { wrAt 10 with turns := [.issue 0x60800000] }
     s.params.wf = true ∧ s.turns = .issue 0x60800000 :: [] ∧ s.mode ≠ .idle) ∧
    (idle.params.wf = true ∧ idle.mode = .idle) ∧
    0x70000000#32 &&& 0xF0030000#32 ≠ 0x50020000#32 ∧ 0x70000000#32 &&& 0xF0000000#32 ≠ 0x60000000#32 ∧
    0x50821140#32 &&& 0xF0030000#32 = 0x50020000#32 ∧ 0x60800000#32 &&& 0xF0000000#32 = 0x60000000#32 ∧
    ∀ c, { idle with turns := [Turn.issue c] }.turns = .issue c :: [] :=
  ⟨by decide, by decide, by decide, by decide, by decide, by decide, fun _ => rfl⟩
theorem witness_CommandsExecuteWhole : idle.mode = .idle ∧ (wrAt 10).mode ≠ .idle := by decide
theorem witness_IgnoredBitsOfAReadHaveNoEffect :
    0x6C0C0000#32 &&& 0xF0000000#32 = 0x60000000#32 ∧
    BitVec.extractLsb' 18 14 0x6C0C0000#32 = BitVec.extractLsb' 18 14 0x6C0C1234#32 := by decide
theorem witness_StepRunsTheIssuedCommand :
    let s := { idle with turns := [.issue 0x50821140, .wait] }
    s.params.wf = true ∧ s.turns = .issue 0x50821140 :: [.wait] ∧
    decodeCmd 0x50821140 = .ok (.write 1 0 0x1140) := by decide
/-- A running command alone with the sequencer. -/
theorem next_of_alone {s : State} (h : SequencerAlone s) : SequencerNext s s :=
  ⟨h.params, .inl ⟨h.turns, rfl⟩⟩
theorem alone_wrAt (n : Nat) : SequencerAlone (wrAt n) :=
  ⟨by change Params.illustrative.wf = true; decide, rfl, rfl⟩
theorem alone_rdAt (n : Nat) : SequencerAlone (rdAt n) :=
  ⟨by change Params.illustrative.wf = true; decide, rfl, rfl⟩
theorem alone_reset : SequencerAlone State.reset := ⟨by decide, rfl, rfl⟩
theorem witness_StepRunsTheTracesMicroOp :
    SequencerNext (rdAt 146) (rdAt 146) ∧ (rdAt 146).mode ≠ .idle ∧ (rdAt 146).fault.mapFailed = false ∧
    trace (rdAt 146).mode (rdAt 146).cmd (rdAt 146).upc = some 0x8#4 ∧ decodeUop 0x8#4 = .ok (.sample .mdio) ∧
    SequencerNext { wrAt 5 with turns := [.sequencer, .abort] } { wrAt 5 with turns := [.abort] } :=
  ⟨next_of_alone (alone_rdAt 146), by decide, rfl, by decide, by decide,
   (alone_wrAt 5).params, .inr ⟨[.abort], rfl, rfl⟩⟩
theorem witness_SequencerStepSettles :
    (wrAt 100).upc + 1 ≠ traceLen (wrAt 100).mode ∧ (wrAt 197).upc + 1 = traceLen (wrAt 197).mode := by decide
theorem witness_OracleAnswersOneSequencerStepEach :
    (let s := runAt .wr wrCmd 5 (.oracle [some false, none])
     SequencerNext s s ∧ s.mode ≠ .idle ∧ s.devices = .oracle (some false :: [none]) ∧ ∃ t, step s = .next t) ∧
    (let s := { wrAt 5 with turns := [.abort, .wait] }
     s.turns = .abort :: [.wait] ∧ Turn.abort ≠ .sequencer ∧ Turn.abort ≠ .wait ∧ ∃ t, step s = .next t) :=
  ⟨⟨⟨by decide, .inl ⟨rfl, rfl⟩⟩, by decide, rfl, ⟨_, rfl⟩⟩, rfl, by decide, by decide, ⟨_, rfl⟩⟩
theorem witness_LastMicroOpCompletes :
    (SequencerNext (rdAt 194) (rdAt 194) ∧ (rdAt 194).mode = .rd ∧ (rdAt 194).apend = false ∧
      (rdAt 194).fault.mapFailed = false ∧ (rdAt 194).cmd ≠ none ∧ (rdAt 194).upc + 1 = traceLen .rd) ∧
    (SequencerNext (wrAt 197) (wrAt 197) ∧ (wrAt 197).mode = .wr ∧ (wrAt 197).apend = false ∧
      (wrAt 197).cmd ≠ none ∧ (wrAt 197).upc + 1 = traceLen .wr) ∧
    (let s := { wrAt 197 with apend := true }
     SequencerNext s s ∧ s.mode = .wr ∧ s.apend = true ∧ s.cmd ≠ none ∧ s.upc + 1 = traceLen s.mode) ∧
    (let s := { State.reset with upc := 1 }
     SequencerNext s s ∧ s.mode = .rst ∧ s.fault.mapFailed = false ∧ s.upc + 1 = traceLen s.mode) :=
  ⟨⟨next_of_alone (alone_rdAt 194), by decide, by decide, rfl, by decide, by decide⟩,
   ⟨next_of_alone (alone_wrAt 197), by decide, by decide, by decide, by decide⟩,
   ⟨⟨(alone_wrAt 197).params, .inl ⟨rfl, rfl⟩⟩, by decide, rfl, by decide, by decide⟩,
   ⟨⟨alone_reset.params, .inl ⟨rfl, rfl⟩⟩, by decide, rfl, by decide⟩⟩
theorem witness_SetupTakesBothLines :
    (SequencerAlone (wrAt 0) ∧ (wrAt 0).mode = .wr ∧ (wrAt 0).cmd ≠ none ∧ (wrAt 0).upc = 0 ∧ (wrAt 0).released) ∧
    (SequencerAlone (rdAt 0) ∧ (rdAt 0).mode = .rd ∧ (rdAt 0).cmd ≠ none ∧ (rdAt 0).upc = 0 ∧ (rdAt 0).released) :=
  ⟨⟨alone_wrAt 0, rfl, by decide, rfl, by decide⟩, ⟨alone_rdAt 0, rfl, by decide, rfl, by decide⟩⟩
theorem witness_SerializerCellClocksOneBit :
    (SequencerAlone (wrAt 193) ∧ (wrAt 193).cmd = some wrCmd ∧ (wrAt 193).upc = 4 + 3 * 63 ∧ (wrAt 193).mode = .wr ∧
      63 < 64 ∧ writeBit wrCmd 63 = some false ∧ (wrAt 193).dirBit .mdio = true ∧ (wrAt 193).dirBit .mdc = true ∧
      (wrAt 193).outBit .mdc = false) ∧
    (SequencerAlone (rdAt 139) ∧ (rdAt 139).cmd = some rdCmd ∧ (rdAt 139).upc = 4 + 3 * 45 ∧ (rdAt 139).mode = .rd ∧
      45 < 46 ∧ readBit rdCmd 45 = some true ∧ (rdAt 139).dirBit .mdio = true ∧ (rdAt 139).dirBit .mdc = true ∧
      (rdAt 139).outBit .mdc = false) :=
  ⟨⟨alone_wrAt 193, rfl, rfl, rfl, by decide, by decide, by decide, by decide, by decide⟩,
   ⟨alone_rdAt 139, rfl, rfl, rfl, by decide, by decide, by decide, by decide, by decide⟩⟩
theorem witness_DataOutDrivesTheShifter :
    (Inv (wrAt 148) ∧ (wrAt 148).mode = .wr ∧ (wrAt 148).cmd = some wrCmd ∧ wrCmd.wdata = some 0x1140 ∧
      (wrAt 148).upc = 148 + 3 * 0) ∧
    (Inv (wrAt 193) ∧ (wrAt 193).mode = .wr ∧ (wrAt 193).upc = 148 + 3 * 15 ∧ 15 < 16) ∧
    (Inv (wrAt 195) ∧ (wrAt 195).mode = .wr ∧ (wrAt 195).upc = 195) :=
  ⟨⟨inv_wrAt (by decide) (by decide) (by decide), rfl, rfl, rfl, rfl⟩,
   ⟨inv_wrAt (by decide) (by decide) (by decide), rfl, rfl, by decide⟩,
   ⟨inv_wrAt (by decide) (by decide) (by decide), rfl, rfl⟩⟩
theorem witness_DataInFillsTheShifter :
    ((rdAt 146).params.wf = true ∧ (rdAt 146).mode = .rd ∧ (rdAt 146).upc = 146 + 3 * 0 ∧ (rdAt 146).sr = some 0) ∧
    ((rdAt 191).params.wf = true ∧ (rdAt 191).upc = 146 + 3 * 15 ∧ 15 < 16 ∧ (rdAt 191).sr = some 0) := by decide
theorem witness_CompletionLeavesBothLinesReleased :
    Inv (wrAt 197) ∧ (wrAt 197).terminated = false ∧ (wrAt 197).mode ≠ .idle ∧ ∃ t, step (wrAt 197) = .next t ∧ t.mode = .idle :=
  ⟨inv_wrAt (by decide) (by decide) (by decide), rfl, by decide, ⟨_, rfl, rfl⟩⟩
theorem witness_AbortJumpsToTheRelease :
    ∀ n, (let s := { wrAt n with turns := [.abort] }
          s.params.wf = true ∧ s.turns = .abort :: [] ∧ s.mode = .wr ∧ s.upc = n) ∧
         (let s := { rdAt n with turns := [.abort] }
          s.params.wf = true ∧ s.turns = .abort :: [] ∧ s.mode = .rd ∧ s.upc = n) ∧
         State.reset.mode = .rst ∧ idle.mode = .idle :=
  fun n => ⟨⟨(alone_wrAt n).params, rfl, rfl, rfl⟩, ⟨(alone_rdAt n).params, rfl, rfl, rfl⟩, rfl, rfl⟩
theorem witness_AbortedCommandReportsAborted :
    Inv (abortedAt 120) ∧ SequencerAlone (abortedAt 120) ∧ (abortedAt 120).apend = true ∧
    (abortedAt 120).terminated = false :=
  ⟨inv_abortedAt (by decide), ⟨by decide, rfl, rfl⟩, rfl, rfl⟩
theorem witness_EveryTraceCompletes :
    (Inv (wrAt 0) ∧ SequencerAlone (wrAt 0) ∧ (wrAt 0).mode ≠ .idle) ∧
    (Inv (rdAt 194) ∧ SequencerAlone (rdAt 194) ∧ (rdAt 194).mode ≠ .idle) ∧
    (SequencerAlone State.reset ∧ State.reset.mode ≠ .idle) :=
  ⟨⟨test_inv_write_positions.1, alone_wrAt 0, by decide⟩,
   ⟨test_inv_read_positions.2.2.2.2, alone_rdAt 194, by decide⟩, alone_reset, by decide⟩
theorem witness_ResetStartsTheReleaseTrace :
    let s := { wrAt 51 with turns := [.reset, .wait] }
    s.params.wf = true ∧ s.turns = .reset :: [.wait] := by decide
theorem witness_ReleaseTraceLeavesTheBlockIdle :
    SequencerAlone State.reset ∧ State.reset.mode = .rst ∧ State.reset.upc = 0 := ⟨alone_reset, rfl, rfl⟩
theorem witness_PowerOnValues :
    State.reset = State.launch Params.illustrative true 0 0 (.oracle []) [] ∧ (true = true) ∧ (false = false) :=
  ⟨rfl, rfl, rfl⟩
/-- Power on with the window not reachable. -/
def unmapped (turns : List Turn) : State := State.launch Params.illustrative false 0 0 (.oracle []) turns
theorem witness_MapFailureNeverEnds :
    (let s := unmapped [.abort]; s.fault.mapFailed = true ∧ s.mode = .rst ∧ ∃ t, step s = .next t) ∧
    (let s := unmapped [.issue 0x60800000]
     s.params.wf = true ∧ s.fault.mapFailed = true ∧ s.mode = .rst ∧
       s.turns = .issue 0x60800000 :: []) ∧
    (SequencerNext (unmapped []) (unmapped []) ∧ (unmapped []).fault.mapFailed = true) :=
  ⟨⟨rfl, rfl, ⟨_, rfl⟩⟩, by decide, ⟨by decide, .inl ⟨rfl, rfl⟩⟩, rfl⟩
theorem witness_FaultBitsAreSticky :
    (let s := { raiseCmdWhileBusy (raiseIllegalCommand (raiseContentionIf true (unmapped []))) with turns := [.reset] }
     s.fault = ⟨true, true, true, true⟩ ∧ s.fault.code ≠ 0#4 ∧ ∃ t, step s = .next t) := ⟨rfl, by decide, ⟨_, rfl⟩⟩
theorem witness_EveryStepKeepsTheInvariant :
    (Inv (wrAt 3) ∧ ∃ t, step (wrAt 3) = .next t) ∧ Inv idle ∧ ∃ t, step idle = .next t :=
  ⟨⟨test_inv_write_positions.2.1, ⟨_, rfl⟩⟩, inv_idle, ⟨_, rfl⟩⟩
theorem witness_InvariantHoldsAtPowerOn : Params.illustrative.wf = true := by decide
/-- A reference device at address 1, hunting. -/
def device1 : RefDevice := ⟨[1], [(regKey 1 0, 0xBEEF)], .hunting, 0, 0, [], none⟩
theorem device1_ok : device1.Ok where
  regs := by decide
  framing h := by cases h
  writeTail _ _ h := by cases h
  drive h := absurd rfl h
theorem witness_EveryStepKeepsTheDeviceInOrder :
    let s := runAt .rd rdCmd 5 (.reference device1)
    s.devicesOk ∧ ∃ t, step s = .next t :=
  ⟨fun _ h => by cases h; exact device1_ok, ⟨_, rfl⟩⟩
/-- A READ that has sampled sixteen ones. -/
def readDone : State := { rdAt 194 with hist := List.replicate 16 (.sample true), sr := some 0xFFFF }
theorem readDone_ok : ReadShifterOk readDone :=
  fun _ _ => ⟨List.replicate 16 true, [], by decide, by decide, by decide⟩
theorem witness_EveryStepKeepsTheReadShifter : ReadShifterOk readDone ∧ ∃ t, step readDone = .next t :=
  ⟨readDone_ok, ⟨_, rfl⟩⟩
theorem witness_CompletedReadReturnsItsSamples :
    SequencerNext readDone readDone ∧ readDone.fault.mapFailed = false ∧ ReadShifterOk readDone ∧
    readDone.mode = .rd ∧ readDone.upc = 194 ∧ readDone.cmd ≠ none ∧ readDone.apend = false :=
  ⟨⟨by decide, .inl ⟨rfl, rfl⟩⟩, rfl, readDone_ok, rfl, rfl, by decide, rfl⟩
theorem witness_OtherGpioBitsAreNeverTouched :
    (∃ t, step (wrAt 3) = .next t) ∧ (∀ r w rest, (wrAt 3).turns ≠ .otherAgent r w :: rest) ∧
    6 ≠ (wrAt 3).params.mdioBit.val ∧ 6 ≠ (wrAt 3).params.mdcBit.val :=
  And.intro ⟨_, rfl⟩ (And.intro (fun _ _ _ => (List.cons_ne_nil _ _).symm) (by decide))
theorem witness_OtherAgentsDoNotDisturbTheLines :
    let s := { wrAt 50 with turns := [.otherAgent .outSet 0xFFFFFFCF] }
    s.params.wf = true ∧ GpioReg.outSet ≠ .inSample ∧ (0xFFFFFFCF#32).getLsbD s.params.mdioBit.val = false ∧
    (0xFFFFFFCF#32).getLsbD s.params.mdcBit.val = false ∧ s.turns = .otherAgent .outSet 0xFFFFFFCF :: [] := by decide
theorem witness_RdataChangesOnlyAtAReadOrReset : ∃ t, step readDone = .next t ∧ t.rdata = some 0xFFFF := ⟨_, rfl, rfl⟩
theorem witness_CommandLatchIsStableWhileBusy : (wrAt 50).busy = true ∧ ∃ t, step (wrAt 50) = .next t :=
  ⟨by decide, ⟨_, rfl⟩⟩
theorem witness_OnlyTheFiveRegistersAreAccessed :
    (∃ t, memWrite 0x8 4 0x10 idle = .ok t) ∧ ∃ v t, memRead 0x10 4 idle = .ok (v, t) := ⟨⟨_, rfl⟩, ⟨_, _, rfl⟩⟩
theorem witness_BadParametersAreRefused :
    (0x2 : Word).toNat % 4 ≠ 0 ∧ (Params.offset { Params.illustrative with offIn := 0x12 } .inSample).toNat % 4 ≠ 0 ∧
    (GpioReg.inSample ≠ .outClr ∧ Params.offset { Params.illustrative with offIn := 0xC } .inSample =
      Params.offset { Params.illustrative with offIn := 0xC } .outClr) ∧
    Params.mdioBit { Params.illustrative with mdcBit := 5 } = 5 := by decide
theorem witness_ReadStatusReportsAndChangesNothing :
    let s := { wrAt 5 with turns := [.readStatus] }
    s.mode ≠ .idle ∧ s.params.wf = true ∧ s.turns = .readStatus :: [] := by decide
theorem witness_SampledInputsTakeTheirOrder :
    ∃ m, step { wrAt 195 with turns := [.abort, .issue 0x60800000] } = .next m := ⟨_, rfl⟩
theorem witness_WaitLetsTheSequencerRun :
    (let s := { wrAt 5 with turns := [.wait] }
     s.params.wf = true ∧ s.turns = .wait :: [] ∧ s.mode ≠ .idle ∧
     (∃ t, step s = .next t) ∧ ∃ t, step { s with turns := [.sequencer] } = .next t) ∧ idle.mode = .idle :=
  ⟨⟨by decide, rfl, by decide, ⟨_, rfl⟩, ⟨_, rfl⟩⟩, rfl⟩
theorem witness_SampleOnlyWhileMdioIsReleased :
    Inv (rdAt 191) ∧ (rdAt 191).terminated = false ∧ (rdAt 191).nextUop = some 0x8#4 :=
  ⟨test_inv_read_positions.2.2.2.1, rfl, by decide⟩
theorem witness_MdioIsStableWhileMdcIsHigh :
    Inv (wrAt 195) ∧ (wrAt 195).terminated = false ∧ SequencerNext (wrAt 195) (wrAt 195) ∧ (wrAt 195).mode = .wr ∧
    (wrAt 195).upc + 2 < traceLen (wrAt 195).mode ∧ (wrAt 195).drv .mdc = some true ∧ (wrAt 195).drv .mdio ≠ none ∧
    ∃ t, step (wrAt 195) = .next t :=
  ⟨inv_wrAt (by decide) (by decide) (by decide), rfl, next_of_alone (alone_wrAt 195), rfl, by decide, by decide,
   by decide, ⟨_, rfl⟩⟩
theorem witness_WriteFrameOnTheWire :
    SequencerAlone (wrAt 0) ∧ (wrAt 0).mode = .wr ∧ (wrAt 0).upc = 0 ∧ (wrAt 0).cmd = some ⟨opWrite, 1, 0, some 0x1140⟩ ∧
    (wrAt 0).sr = some 0x1140 ∧ (wrAt 0).apend = false ∧ (wrAt 0).released ∧
    encode (.write 1 0 0x1140) = .cmd32 0x50821140#32 :=
  ⟨alone_wrAt 0, rfl, rfl, rfl, by decide, rfl, by decide, by decide⟩
theorem witness_ReadFrameOnTheWire :
    SequencerAlone (rdAt 0) ∧ (rdAt 0).mode = .rd ∧ (rdAt 0).upc = 0 ∧ (rdAt 0).cmd = some ⟨opRead, 0x18, 3, none⟩ ∧
    (rdAt 0).sr = some 0 ∧ (rdAt 0).apend = false ∧ (rdAt 0).released ∧
    0x1B03#14 = 0x1800#14 ||| ((0x18#5).setWidth 14 <<< 5) ||| (3#5).setWidth 14 :=
  ⟨alone_rdAt 0, rfl, rfl, rfl, by decide, rfl, by decide, by decide⟩
theorem witness_ReadReturnsWhatWriteStored :
    let s := { block 0 0 (.reference device1) with turns := [.issue 0x50821140, .wait, .issue 0x60800000, .wait] }
    s.params.wf = true ∧ s.fault.mapFailed = false ∧ s.mode = .idle ∧ s.released ∧
    s.devices = .reference device1 ∧ device1.Ok ∧ device1.phase = .hunting ∧ (1 : Addr5) ∈ device1.present ∧
    encode (.write 1 0 0x1140) = .cmd32 0x50821140#32 ∧ encode (.read 1 0 0) = .cmd32 0x60800000#32 ∧
    s.turns = [.issue 0x50821140, .wait, .issue 0x60800000, .wait] :=
  ⟨by decide, rfl, rfl, by decide, rfl, device1_ok, rfl, by decide, by decide, by decide, rfl⟩

end Sys2Proof.Tests
end

section
/-! SUPPORT. What a micro-op does to each line, and which micro-op stands at each position of a trace (R95, R99). -/

namespace Sys2Proof.Machine

/-! ### What a micro-op does to a line's direction and latch -/

/-- The direction of line `l` after micro-op `i`, from the direction before (R73, R74). -/
def Instr.dirAfter (i : Instr) (l : Line) (b : Bool) : Bool :=
  match i with
  | .setInput l' => b && !decide (l' = l)
  | .setOutput l' => b || decide (l' = l)
  | .driveLow _ => b
  | .driveHigh _ => b
  | .sample _ => b
  | .write _ _ _ => b
  | .read _ _ _ => b

/-- The latch of line `l` after micro-op `i`, from the latch before (R69, R70). -/
def Instr.outAfter (i : Instr) (l : Line) (b : Bool) : Bool :=
  match i with
  | .driveLow l' => b && !decide (l' = l)
  | .driveHigh l' => b || decide (l' = l)
  | .setInput _ => b
  | .setOutput _ => b
  | .sample _ => b
  | .write _ _ _ => b
  | .read _ _ _ => b

theorem uopResult_dirBit {s : State} (h : s.params.wf = true) (i : Instr) (l : Line) :
    (uopResult i s).dirBit l = Instr.dirAfter i l (s.dirBit l) := by
  cases i with
  | write => rfl
  | read => rfl
  | driveLow l' => exact uopResult_driveLow_dirBit h l' l
  | driveHigh l' => exact uopResult_driveHigh_dirBit h l' l
  | setInput l' => exact uopResult_setInput_dirBit h l' l
  | setOutput l' => exact uopResult_setOutput_dirBit h l' l
  | sample l' => exact uopResult_sample_dirBit s l' l

theorem uopResult_outBit {s : State} (h : s.params.wf = true) (i : Instr) (l : Line) :
    (uopResult i s).outBit l = Instr.outAfter i l (s.outBit l) := by
  cases i with
  | write => rfl
  | read => rfl
  | driveLow l' => exact uopResult_driveLow_outBit h l' l
  | driveHigh l' => exact uopResult_driveHigh_outBit h l' l
  | setInput l' => exact uopResult_setInput_outBit h l' l
  | setOutput l' => exact uopResult_setOutput_outBit h l' l
  | sample l' => exact uopResult_sample_outBit s l' l

/-! ### The micro-ops of a frame, by position (R95, R99) -/

/-- The bit the host puts on MDIO in slot `k` of a mode's frame (R55, R56). -/
def hostBit (m : Mode) (c : Cmd) (k : Nat) : Option Bool :=
  match m with
  | .wr => writeBit c k
  | .rd => readBit c k
  | .idle => none
  | .rst => none

/-- The slots whose second and third micro-op are the edges of MDC: all 64 of a WRITE, of a READ those before
the data, where the SAMPLE stands between the edges (R79, R86). -/
def edgeCells : Mode → Nat
  | .wr => 64
  | .rd => 47
  | .idle => 0
  | .rst => 0

/-- The drive that begins BIT(b) (R79). -/
def driveBit (b : Bool) : Instr := if b then .driveHigh .mdio else .driveLow .mdio

/-- Micro-op `i` stands at position `n` of the WRITE or READ trace of `c`. -/
inductive FrameUop (c : Cmd) (m : Mode) : Nat → Instr → Prop
  | mdcLow : FrameUop c m 0 (.driveLow .mdc)
  | mdioHigh : FrameUop c m 1 (.driveHigh .mdio)
  | takeMdc : FrameUop c m 2 (.setOutput .mdc)
  | takeMdio : FrameUop c m 3 (.setOutput .mdio)
  | bit (k : Nat) (b : Bool) (hb : hostBit m c k = some b) : FrameUop c m (4 + 3 * k) (driveBit b)
  | rise (k : Nat) (hk : k < edgeCells m) : FrameUop c m (5 + 3 * k) (.driveHigh .mdc)
  | fall (k : Nat) (hk : k < edgeCells m) : FrameUop c m (6 + 3 * k) (.driveLow .mdc)
  | turnaround (hm : m = .rd) : FrameUop c m 142 (.setInput .mdio)
  | dataRise (hm : m = .rd) (j : Nat) (hj : j < 16) : FrameUop c m (145 + 3 * j) (.driveHigh .mdc)
  | dataSample (hm : m = .rd) (j : Nat) (hj : j < 16) : FrameUop c m (146 + 3 * j) (.sample .mdio)
  | dataFall (hm : m = .rd) (j : Nat) (hj : j < 16) : FrameUop c m (147 + 3 * j) (.driveLow .mdc)
  | releaseMdio : FrameUop c m (traceLen m - 2) (.setInput .mdio)
  | releaseMdc : FrameUop c m (traceLen m - 1) (.setInput .mdc)

theorem hostBit_wr_lt {c : Cmd} {k : Nat} {b : Bool} (h : hostBit .wr c k = some b) : k < 64 := by
  by_contra hk
  simp only [hostBit, writeBit] at h
  rw [if_neg (by omega), if_neg (by omega), if_neg (by omega), if_neg (by omega), if_neg (by omega)] at h
  cases h

theorem hostBit_rd_lt {c : Cmd} {k : Nat} {b : Bool} (h : hostBit .rd c k = some b) : k < 46 := by
  by_contra hk
  simp only [hostBit, readBit] at h
  rw [if_neg (by omega), if_neg (by omega)] at h
  cases h

@[simp] theorem decodeUop_drvBit (b : Bool) : decodeUop (drvBit b) = .ok (driveBit b) := by
  cases b <;> rfl

theorem frameUop_of_setup (c : Cmd) (m : Mode) {n : Nat} {u : BitVec 4} (hu : setupUop n = some u) :
    ∃ i, decodeUop u = .ok i ∧ FrameUop c m n i := by
  unfold setupUop at hu
  split at hu
  · cases hu; exact ⟨_, decodeUop_drvL _, .mdcLow⟩
  · cases hu; exact ⟨_, decodeUop_drvH _, .mdioHigh⟩
  · cases hu; exact ⟨_, decodeUop_setOut _, .takeMdc⟩
  · cases hu; exact ⟨_, decodeUop_setOut _, .takeMdio⟩
  · cases hu

theorem frameUop_of_cell {c : Cmd} {m : Mode} {n k r : Nat} {x : Option Bool} {u : BitVec 4}
    (hx : hostBit m c k = x) (hn : n = 4 + 3 * k + r) (hr : r < 3) (hk : k < edgeCells m)
    (hu : cellUop x r = some u) :
    ∃ i, decodeUop u = .ok i ∧ FrameUop c m n i := by
  subst hx hn
  interval_cases r
  · obtain ⟨b, hb, rfl⟩ := Option.map_eq_some_iff.mp hu
    exact ⟨_, decodeUop_drvBit b, .bit k b hb⟩
  · cases hu
    rw [show 4 + 3 * k + 1 = 5 + 3 * k by omega]
    exact ⟨_, decodeUop_drvH _, .rise k hk⟩
  · cases hu
    rw [show 4 + 3 * k + 2 = 6 + 3 * k by omega]
    exact ⟨_, decodeUop_drvL _, .fall k hk⟩

theorem frameUop_of_sampleCell (c : Cmd) {n j r : Nat} (hn : n = 145 + 3 * j + r) (hr : r < 3) (hj : j < 16) :
    ∃ i, decodeUop (sampleCellUop r) = .ok i ∧ FrameUop c .rd n i := by
  subst hn
  interval_cases r
  · exact ⟨_, decodeUop_drvH _, .dataRise rfl j hj⟩
  · rw [show 145 + 3 * j + 1 = 146 + 3 * j by omega]
    exact ⟨_, decodeUop_smpL _, .dataSample rfl j hj⟩
  · rw [show 145 + 3 * j + 2 = 147 + 3 * j by omega]
    exact ⟨_, decodeUop_drvL _, .dataFall rfl j hj⟩

theorem frameUop_of_release (c : Cmd) {m : Mode} {n r : Nat} {u : BitVec 4} (hn : n + 2 = traceLen m + r)
    (hu : releaseUop r = some u) (hm : m = .wr ∨ m = .rd) : ∃ i, decodeUop u = .ok i ∧ FrameUop c m n i := by
  have hlen : 2 ≤ traceLen m := by rcases hm with rfl | rfl <;> decide
  unfold releaseUop at hu
  split at hu
  · cases hu
    rw [show n = traceLen m - 2 by omega]
    exact ⟨_, decodeUop_setIn _, .releaseMdio⟩
  · cases hu
    rw [show n = traceLen m - 1 by omega]
    exact ⟨_, decodeUop_setIn _, .releaseMdc⟩
  · cases hu

theorem frameUop_of_writeTrace {c : Cmd} {n : Nat} {u : BitVec 4} (hu : writeTrace c n = some u) :
    ∃ i, decodeUop u = .ok i ∧ FrameUop c .wr n i := by
  unfold writeTrace at hu
  split at hu
  · exact frameUop_of_setup c .wr hu
  split at hu
  · exact frameUop_of_cell (m := .wr) (k := (n - 4) / 3) rfl (by omega) (by omega)
      (by simp only [edgeCells]; omega) hu
  · exact frameUop_of_release c (by simp only [traceLen]; omega) hu (.inl rfl)

theorem frameUop_of_readTrace {c : Cmd} {n : Nat} {u : BitVec 4} (hu : readTrace c n = some u) :
    ∃ i, decodeUop u = .ok i ∧ FrameUop c .rd n i := by
  unfold readTrace at hu
  split at hu
  · exact frameUop_of_setup c .rd hu
  split at hu
  · exact frameUop_of_cell (m := .rd) (k := (n - 4) / 3) rfl (by omega) (by omega)
      (by simp only [edgeCells]; omega) hu
  split at hu
  · next h => cases hu; subst h; exact ⟨_, decodeUop_setIn _, .turnaround rfl⟩
  split at hu
  · next h => cases hu; subst h; exact ⟨_, decodeUop_drvH _, .rise 46 (by decide)⟩
  split at hu
  · next h => cases hu; subst h; exact ⟨_, decodeUop_drvL _, .fall 46 (by decide)⟩
  split at hu
  · obtain rfl := Option.some.inj hu
    exact frameUop_of_sampleCell c (j := (n - 145) / 3) (by omega) (by omega) (by omega)
  · exact frameUop_of_release c (by simp only [traceLen]; omega) hu (.inr rfl)

/-- What the sequencer fetches while a command runs is the micro-op of the frame at `upc`. -/
theorem frameUop_of_nextUop {s : State} {c : Cmd} {u : BitVec 4} {i : Instr} (hc : s.cmd = some c)
    (hm : s.mode = .wr ∨ s.mode = .rd) (hu : s.nextUop = some u) (hi : decodeUop u = .ok i) :
    FrameUop c s.mode s.upc i := by
  have hex : ∃ i', decodeUop u = .ok i' ∧ FrameUop c s.mode s.upc i' := by
    unfold State.nextUop at hu
    rw [hc] at hu
    rcases hm with hm | hm <;> rw [hm] at hu ⊢
    · exact frameUop_of_writeTrace hu
    · exact frameUop_of_readTrace hu
  obtain ⟨i', hi', hf⟩ := hex
  cases hi.symm.trans hi'
  exact hf

/-- Every trace ends with the two accesses of RELEASE (R87, R95, R99, R123). -/
theorem nextUop_release {s : State} {r : Nat} {u : BitVec 4} (hn : s.upc + 2 = traceLen s.mode + r)
    (hu : s.nextUop = some u) : releaseUop r = some u := by
  unfold State.nextUop at hu
  cases hm : s.mode <;> rw [hm] at hn hu
  case idle => cases hu
  case rst =>
    rw [show s.upc = r by simp only [traceLen] at hn; omega] at hu
    exact hu
  case wr =>
    obtain ⟨c, -, hu⟩ := Option.bind_eq_some_iff.mp hu
    rw [show s.upc = 196 + r by simp only [traceLen] at hn; omega] at hu
    simpa [writeTrace, show ¬ 196 + r < 4 by omega] using hu
  case rd =>
    obtain ⟨c, -, hu⟩ := Option.bind_eq_some_iff.mp hu
    rw [show s.upc = 193 + r by simp only [traceLen] at hn; omega] at hu
    simpa [readTrace, show ¬ 193 + r < 4 by omega, show ¬ 193 + r < 142 by omega,
      show 193 + r ≠ 142 by omega, show 193 + r ≠ 143 by omega, show 193 + r ≠ 144 by omega] using hu

theorem uop_last {s : State} {u : BitVec 4} {i : Instr} (hn : s.upc + 1 = traceLen s.mode)
    (hu : s.nextUop = some u) (hi : decodeUop u = .ok i) : i = .setInput .mdc := by
  cases nextUop_release (r := 1) (by omega) hu
  cases hi
  rfl

theorem uop_beforeLast {s : State} {u : BitVec 4} {i : Instr} (hn : s.upc + 2 = traceLen s.mode)
    (hu : s.nextUop = some u) (hi : decodeUop u = .ok i) : i = .setInput .mdio := by
  cases nextUop_release (r := 0) (by omega) hu
  cases hi
  rfl

end Sys2Proof.Machine
end

section
/-! SUPPORT. What the invariant expects of the lines at a position follows from the micro-ops of the trace. -/

namespace Sys2Proof.Machine

@[simp] theorem driveBit_dirAfter (b : Bool) (l : Line) (x : Bool) : Instr.dirAfter (driveBit b) l x = x := by
  cases b <;> rfl
@[simp] theorem driveBit_outAfter_mdio (b x : Bool) : Instr.outAfter (driveBit b) .mdio x = b := by
  cases b <;> cases x <;> rfl
@[simp] theorem driveBit_outAfter_mdc (b x : Bool) : Instr.outAfter (driveBit b) .mdc x = x := by
  cases b <;> cases x <;> rfl

section
variable {c : Cmd} {m : Mode} {n : Nat} {i : Instr}

/-- The host drives MDC from `SETOUT MDC` on. -/
theorem FrameUop.mdcDir_step (h : FrameUop c m n i) (hm : m = .wr ∨ m = .rd) (hn : n + 1 < traceLen m) :
    Instr.dirAfter i .mdc (decide (3 ≤ n)) = decide (3 ≤ n + 1) := by
  rw [Bool.eq_iff_iff]
  cases h with
  | releaseMdc => omega
  | releaseMdio => rcases hm with rfl | rfl <;> decide
  | bit k b hb => simp; omega
  | _ => simp [Instr.dirAfter] <;> omega

/-- The direction of MDIO follows `hostOwnsMdio` (R98). -/
theorem FrameUop.mdioDir_step (h : FrameUop c m n i) (hm : m = .wr ∨ m = .rd) (hn : n + 1 < traceLen m) :
    Instr.dirAfter i .mdio (hostOwnsMdio m n) = hostOwnsMdio m (n + 1) := by
  rw [Bool.eq_iff_iff]
  rcases hm with rfl | rfl <;> simp only [traceLen] at hn
  · cases h with
    | turnaround hm => cases hm
    | bit k b hb => have hk := hostBit_wr_lt hb; simp [hostOwnsMdio]; omega
    | _ => simp [Instr.dirAfter, hostOwnsMdio, traceLen] <;> omega
  · cases h with
    | bit k b hb => have hk := hostBit_rd_lt hb; simp [hostOwnsMdio]; omega
    | rise k hk => change k < 47 at hk; simp [Instr.dirAfter, hostOwnsMdio]; omega
    | fall k hk => change k < 47 at hk; simp [Instr.dirAfter, hostOwnsMdio]; omega
    | _ => simp [Instr.dirAfter, hostOwnsMdio, traceLen] <;> omega

theorem FrameUop.first (h : FrameUop c m n i) (hm : m = .wr ∨ m = .rd) (hn : n = 0) : i = .driveLow .mdc := by
  have hlen : 3 ≤ traceLen m := by rcases hm with rfl | rfl <;> decide
  cases h with
  | mdcLow => rfl
  | _ => omega

/-- The latch of MDC follows `mdcHigh`, whatever it held before the first micro-op (R96, R100). -/
theorem FrameUop.mdcLatch_step (h : FrameUop c m n i) (hm : m = .wr ∨ m = .rd) (hn : n + 1 < traceLen m)
    {x : Bool} (hx : 1 ≤ n → x = mdcHigh m n) : Instr.outAfter i .mdc x = mdcHigh m (n + 1) := by
  rcases Nat.eq_zero_or_pos n with h0 | hpos
  · rw [h.first hm h0, h0]
    rcases hm with rfl | rfl <;> simp [Instr.outAfter, mdcHigh]
  rw [hx hpos, Bool.eq_iff_iff]
  clear hx
  rcases hm with rfl | rfl <;> simp only [traceLen] at hn
  · cases h with
    | turnaround hm => cases hm
    | dataRise hm => cases hm
    | dataSample hm => cases hm
    | dataFall hm => cases hm
    | bit k b hb => have hk := hostBit_wr_lt hb; simp [mdcHigh]; omega
    | _ => simp [Instr.outAfter, mdcHigh, traceLen] <;> omega
  · cases h with
    | bit k b hb => have hk := hostBit_rd_lt hb; simp [mdcHigh]; omega
    | rise k hk => change k < 47 at hk; simp [Instr.outAfter, mdcHigh]; omega
    | fall k hk => change k < 47 at hk; simp [Instr.outAfter, mdcHigh]; omega
    | _ => simp [Instr.outAfter, mdcHigh, traceLen] <;> omega

/-- The last slot in which the host drives a bit (R55, R56). -/
def lastBitSlot : Mode → Nat
  | .wr => 63
  | .rd => 45
  | .idle => 0
  | .rst => 0

theorem lastHostBit_eq (m : Mode) (c : Cmd) (n : Nat) :
    lastHostBit m c n = if n < 5 then some true else hostBit m c (min ((n - 5) / 3) (lastBitSlot m)) := by
  cases m <;> rfl

theorem hostBit_le {k : Nat} {b : Bool} (h : hostBit m c k = some b) : k ≤ lastBitSlot m := by
  cases m with
  | idle => cases h
  | rst => cases h
  | wr => exact Nat.le_of_lt_succ (hostBit_wr_lt h)
  | rd => exact Nat.le_of_lt_succ (hostBit_rd_lt h)

theorem lastHostBit_keep (m : Mode) (c : Cmd) {n : Nat} (hn : 5 ≤ n)
    (hslot : min ((n + 1 - 5) / 3) (lastBitSlot m) = min ((n - 5) / 3) (lastBitSlot m)) :
    lastHostBit m c (n + 1) = lastHostBit m c n := by
  rw [lastHostBit_eq, lastHostBit_eq, if_neg (by omega), if_neg (by omega), hslot]

/-- The latch of MDIO follows `lastHostBit`, whatever it held before the second micro-op (R27). -/
theorem FrameUop.mdioLatch_step (h : FrameUop c m n i) (hm : m = .wr ∨ m = .rd) (hn : n + 1 < traceLen m)
    {x : Bool} (hpos : 1 ≤ n) (hx : 2 ≤ n → lastHostBit m c n = some x) :
    lastHostBit m c (n + 1) = some (Instr.outAfter i .mdio x) := by
  cases h with
  | mdcLow => omega
  | mdioHigh => cases x <;> rfl
  | takeMdc => exact hx (by omega)
  | takeMdio => exact hx (by omega)
  | bit k b hb =>
    have hk := hostBit_le hb
    have hslot : min ((4 + 3 * k + 1 - 5) / 3) (lastBitSlot m) = k := by omega
    rw [lastHostBit_eq, if_neg (by omega), hslot, hb, driveBit_outAfter_mdio]
  | releaseMdc => omega
  | releaseMdio =>
    rcases hm with rfl | rfl <;>
      exact (lastHostBit_keep _ c (by decide) (by decide)).trans (hx (by decide))
  | turnaround hr =>
    subst hr
    exact (lastHostBit_keep _ c (by decide) (by decide)).trans (hx (by decide))
  | dataRise hr j hj =>
    subst hr
    have hslot : min ((145 + 3 * j + 1 - 5) / 3) 45 = min ((145 + 3 * j - 5) / 3) 45 := by omega
    simpa [Instr.outAfter] using (lastHostBit_keep .rd c (by omega) hslot).trans (hx (by omega))
  | _ => simpa [Instr.outAfter] using (lastHostBit_keep m c (by omega) (by omega)).trans (hx (by omega))
end

end Sys2Proof.Machine
end

section
/-! SUPPORT. The fields of the state after a sequencer step (R91, R102). -/

namespace Sys2Proof.Machine

/-! ### The fields after a sequencer step -/

@[simp] theorem finishUop_params (s t : State) : (finishUop s t).params = t.params := by
  rw [finishUop_eq]; split <;> simp
@[simp] theorem finishUop_dir (s t : State) : (finishUop s t).dir = t.dir := by
  rw [finishUop_eq]; split <;> simp
@[simp] theorem finishUop_out (s t : State) : (finishUop s t).out = t.out := by
  rw [finishUop_eq]; split <;> simp
@[simp] theorem finishUop_cmd (s t : State) : (finishUop s t).cmd = t.cmd := by
  rw [finishUop_eq]; split <;> simp
@[simp] theorem finishUop_sr (s t : State) : (finishUop s t).sr = t.sr := by
  rw [finishUop_eq]; split <;> simp
@[simp] theorem finishUop_hist (s t : State) : (finishUop s t).hist = t.hist := by
  rw [finishUop_eq]; split <;> simp
@[simp] theorem finishUop_terminated (s t : State) : (finishUop s t).terminated = t.terminated := by
  rw [finishUop_eq]; split <;> simp
theorem finishUop_fault (s t : State) :
    (finishUop s t).fault =
      { t.fault with contention := t.fault.contention || (t.dirBit .mdio && s.devNow.isSome) } := by
  rw [finishUop_eq, ← settled_fault]; split <;> simp

theorem complete_aborted (s : State) :
    (complete s).aborted = (s.aborted || (s.apend && decide (s.mode = .wr ∨ s.mode = .rd))) := by
  unfold complete; cases s.mode <;> simp
theorem complete_rdv (s : State) : (complete s).rdv = (s.rdv || (decide (s.mode = .rd) && !s.apend)) := by
  unfold complete; cases s.mode <;> simp
theorem complete_rdata (s : State) :
    (complete s).rdata = if s.mode = .rd ∧ s.apend = false then s.sr else s.rdata := by
  unfold complete; cases s.mode <;> cases s.apend <;> simp

section
variable {s t : State} (hn : t.upc + 1 ≠ traceLen t.mode)
include hn

/-- A sequencer step that is not the last of its trace only moves `upc` on. -/
theorem finishUop_running : finishUop s t = { settled s t with upc := t.upc + 1 } := by
  rw [finishUop_eq, if_neg hn]
theorem finishUop_running_mode : (finishUop s t).mode = t.mode := by simp [finishUop_running hn]
theorem finishUop_running_upc : (finishUop s t).upc = t.upc + 1 := by simp [finishUop_running hn]
theorem finishUop_running_rdata : (finishUop s t).rdata = t.rdata := by simp [finishUop_running hn]
theorem finishUop_running_rdv : (finishUop s t).rdv = t.rdv := by simp [finishUop_running hn]
theorem finishUop_running_aborted : (finishUop s t).aborted = t.aborted := by simp [finishUop_running hn]
theorem finishUop_running_apend : (finishUop s t).apend = t.apend := by simp [finishUop_running hn]
end

section
variable {s t : State} (hn : t.upc + 1 = traceLen t.mode)
include hn

/-- The last sequencer step of a trace completes (R102). -/
theorem finishUop_last : finishUop s t = complete { settled s t with upc := t.upc + 1 } := by
  rw [finishUop_eq, if_pos hn]
theorem finishUop_last_mode : (finishUop s t).mode = .idle := by simp [finishUop_last hn]
theorem finishUop_last_upc : (finishUop s t).upc = 0 := by simp [finishUop_last hn]
theorem finishUop_last_apend : (finishUop s t).apend = false := by simp [finishUop_last hn]
theorem finishUop_last_aborted :
    (finishUop s t).aborted = (t.aborted || (t.apend && decide (t.mode = .wr ∨ t.mode = .rd))) := by
  simp [finishUop_last hn, complete_aborted]
theorem finishUop_last_rdv :
    (finishUop s t).rdv = (t.rdv || (decide (t.mode = .rd) && !t.apend)) := by
  simp [finishUop_last hn, complete_rdv]
theorem finishUop_last_rdata :
    (finishUop s t).rdata = if t.mode = .rd ∧ t.apend = false then t.sr else t.rdata := by
  simp [finishUop_last hn, complete_rdata]
end

/-! ### The shift register in a step -/

@[simp] theorem atDataOut_emit_written (r : GpioReg) (l : Line) (es : List LineEvent) (s : State) :
    (emit es (written r l s)).atDataOut = s.atDataOut := by simp [State.atDataOut]

/-- Away from the data-out and data-in positions no micro-op changes SR (R85, R86). -/
theorem uopResult_sr_quiet {s : State} (i : Instr) (ho : s.atDataOut = false) (hi : s.atDataIn = false) :
    (uopResult i s).sr = s.sr := by
  have hi' : ∀ es d p, (emit es { s with draws := d, port := p }).atDataIn = false := fun _ _ _ => hi
  cases i <;> simp [uopResult, shiftOut_sr, shiftIn_sr, ho, hi']

/-- At a data-out bit the drive shifts SR (R85). -/
theorem driveBit_sr {s : State} (b : Bool) (ho : s.atDataOut = true) :
    (uopResult (driveBit b) s).sr = s.sr.map (fun v => shiftLeft v false) := by
  cases b <;> simp [driveBit, uopResult, shiftOut_sr, ho]

end Sys2Proof.Machine
end

section
/-! PROOFS. The invariant of the machine: every move keeps it, and power on meets it. -/

namespace Sys2Proof.Machine

/-! ### The invariant over a sequencer step -/

section
variable {s : State} {u : BitVec 4} {i : Instr}

/-- The lines stay as the trace says, up to its last micro-op. -/
theorem LineProfile.after_uop {c : Cmd} (hp : LineProfile s c) (hw : s.params.wf = true)
    (hm : s.mode = .wr ∨ s.mode = .rd) (hf : FrameUop c s.mode s.upc i) (hn : s.upc + 1 < traceLen s.mode) :
    LineProfile (finishUop s (uopResult i s)) c := by
  have hrun : (uopResult i s).upc + 1 ≠ traceLen (uopResult i s).mode := by simp; omega
  have hmode : (finishUop s (uopResult i s)).mode = s.mode := by simp [finishUop_running_mode hrun]
  have hupc : (finishUop s (uopResult i s)).upc = s.upc + 1 := by simp [finishUop_running_upc hrun]
  have hmdc : s.dirBit .mdc = decide (3 ≤ s.upc) := by
    rw [Bool.eq_iff_iff, hp.mdcDir, decide_eq_true_iff]
  constructor <;> simp only [hmode, hupc, finishUop_dirBit, finishUop_outBit, uopResult_dirBit hw, uopResult_outBit hw]
  · rw [hmdc, hf.mdcDir_step hm hn, decide_eq_true_iff]
  · rw [hp.mdioDir, hf.mdioDir_step hm hn]
  · exact fun _ => hf.mdcLatch_step hm hn hp.mdcLatch
  · exact fun h => hf.mdioLatch_step hm hn (by omega) hp.mdioLatch

/-- At a data-out bit the micro-op is the drive of a bit (R95). -/
theorem FrameUop.at_dataOut {c : Cmd} {n : Nat} (h : FrameUop c .wr n i) (h1 : 148 ≤ n) (h2 : n < 196)
    (h3 : (n - 148) % 3 = 0) : ∃ b, i = driveBit b := by
  cases h with
  | bit k b hb => exact ⟨b, rfl⟩
  | turnaround hm => cases hm
  | dataRise hm => cases hm
  | dataSample hm => cases hm
  | dataFall hm => cases hm
  | releaseMdio => exact absurd h2 (by decide)
  | releaseMdc => exact absurd h2 (by decide)
  | _ => omega

/-- A step of a WRITE shifts SR exactly where `dataBitsDone` counts one more bit (R85). -/
theorem writeShifter_step {c : Cmd} {d : Half} (hm : s.mode = .wr) (hf : FrameUop c .wr s.upc i)
    (hn : s.upc + 1 < 196) (hsr : s.sr = some (d <<< dataBitsDone .wr s.upc)) :
    (uopResult i s).sr = some (d <<< dataBitsDone .wr (s.upc + 1)) := by
  have hin : s.atDataIn = false := by simp [State.atDataIn, hm]
  by_cases ho : s.atDataOut = true
  · have hpos : 148 ≤ s.upc ∧ s.upc < 196 ∧ (s.upc - 148) % 3 = 0 := by simpa [State.atDataOut, hm] using ho
    obtain ⟨h1, h2, h3⟩ := hpos
    obtain ⟨b, rfl⟩ := hf.at_dataOut h1 h2 h3
    have hcount : dataBitsDone .wr (s.upc + 1) = dataBitsDone .wr s.upc + 1 := by
      simp only [dataBitsDone]; omega
    rw [driveBit_sr b ho, hsr, hcount, BitVec.shiftLeft_add]
    simp [shiftLeft]
  · have hpos : ¬ (148 ≤ s.upc ∧ s.upc < 196 ∧ (s.upc - 148) % 3 = 0) := by simpa [State.atDataOut, hm] using ho
    have hcount : dataBitsDone .wr (s.upc + 1) = dataBitsDone .wr s.upc := by
      simp only [dataBitsDone]; omega
    rw [uopResult_sr_quiet i (by simpa using ho) hin, hsr, hcount]

variable (hI : Inv s) (hbusy : s.mode ≠ .idle) (hu : s.nextUop = some u) (hi : decodeUop u = .ok i)
include hI

theorem Inv.cmd_some (hm : s.mode = .wr ∨ s.mode = .rd) : ∃ c, s.cmd = some c := by
  rcases hm with hm | hm
  · obtain ⟨pa, ra, d, hc, -⟩ := hI.writeCmd hm; exact ⟨_, hc⟩
  · obtain ⟨pa, ra, hc⟩ := hI.readCmd hm; exact ⟨_, hc⟩

include hbusy
theorem Inv.rdv_busy : s.rdv = false := by
  by_contra h
  exact hbusy (hI.rdvIdle (by simpa using h)).1
theorem Inv.aborted_busy : s.aborted = false := by
  by_contra h
  exact hbusy (hI.abortedIdle (by simpa using h))

include hu hi
/-- A sequencer step before the last of its trace keeps the invariant. -/
theorem Inv.after_uop (hn : s.upc + 1 ≠ traceLen s.mode) : Inv (finishUop s (uopResult i s)) := by
  have hlt : s.upc + 1 < traceLen s.mode := by have := hI.position hbusy; omega
  have hrun : (uopResult i s).upc + 1 ≠ traceLen (uopResult i s).mode := by simpa using hn
  have hmode : (finishUop s (uopResult i s)).mode = s.mode := by simp [finishUop_running_mode hrun]
  have hupc : (finishUop s (uopResult i s)).upc = s.upc + 1 := by simp [finishUop_running_upc hrun]
  have hcmd : (finishUop s (uopResult i s)).cmd = s.cmd := by simp
  have hapend : (finishUop s (uopResult i s)).apend = s.apend := by simp [finishUop_running_apend hrun]
  have hterm : (finishUop s (uopResult i s)).terminated = s.terminated := by simp
  constructor
  case params => simpa using hI.params
  all_goals simp only [hmode, hupc, hcmd, hapend, hterm]
  case position => exact fun _ => hlt
  case idleUpc => exact fun h => absurd h hbusy
  case writeCmd =>
    intro hm
    obtain ⟨pa, ra, d, hc, hsr⟩ := hI.writeCmd hm
    refine ⟨pa, ra, d, hc, fun h => ?_⟩
    have hf := frameUop_of_nextUop hc (.inl hm) hu hi
    rw [hm] at hf
    rw [finishUop_sr]
    exact writeShifter_step hm hf h (hsr (by omega))
  case readCmd => exact hI.readCmd
  case shifter =>
    intro hm
    rw [finishUop_sr]
    exact uopResult_sr_some i (hI.shifter hm)
  case apendBusy => exact hI.apendBusy
  case apendPast => exact fun h => Nat.le_succ_of_le (hI.apendPast h)
  case rdvIdle => simp [finishUop_running_rdv hrun, hI.rdv_busy hbusy]
  case abortedIdle => simp [finishUop_running_aborted hrun, hI.aborted_busy hbusy]
  case idleReleased => exact fun _ h => absurd h hbusy
  case releaseHalfDone =>
    intro _ _ h
    obtain rfl := uop_beforeLast h hu hi
    simp [finishUop_dirBit, uopResult_dirBit hI.params, Instr.dirAfter]
  case lines =>
    intro ht c hc hm ha
    have hp := hI.lines ht c hc hm (ha.imp (fun h => by omega) id)
    exact hp.after_uop hI.params hm (frameUop_of_nextUop hc hm hu hi) hlt

/-- The last sequencer step of a trace keeps the invariant: it leaves the block idle, the lines released. -/
theorem Inv.after_last (hn : s.upc + 1 = traceLen s.mode) : Inv (finishUop s (uopResult i s)) := by
  have hlast : (uopResult i s).upc + 1 = traceLen (uopResult i s).mode := by simpa using hn
  have hmode : (finishUop s (uopResult i s)).mode = .idle := finishUop_last_mode hlast
  have hapend : (finishUop s (uopResult i s)).apend = false := finishUop_last_apend hlast
  constructor
  case params => simpa using hI.params
  all_goals simp only [hmode, hapend]
  case position => exact fun h => absurd rfl h
  case idleUpc => exact fun _ => finishUop_last_upc hlast
  case writeCmd => exact fun h => nomatch h
  case readCmd => exact fun h => nomatch h
  case shifter => simp
  case apendBusy => exact fun h => nomatch h
  case apendPast => exact fun h => nomatch h
  case rdvIdle =>
    intro h
    have hrd : s.mode = .rd ∧ s.apend = false := by
      simpa [finishUop_last_rdv hlast, hI.rdv_busy hbusy] using h
    refine ⟨trivial, ?_, ?_⟩
    · simp [finishUop_last_aborted hlast, hI.aborted_busy hbusy, hrd]
    · rw [finishUop_last_rdata hlast, if_pos (by simpa using hrd)]
      exact uopResult_sr_some i (hI.shifter (.inr hrd.1))
  case abortedIdle => exact fun _ => trivial
  case idleReleased =>
    intro ht _
    have hmdio : s.dirBit .mdio = false := hI.releaseHalfDone (by simpa using ht) hbusy hn
    obtain rfl := uop_last hn hu hi
    simp [State.released, finishUop_dirBit, uopResult_dirBit hI.params, Instr.dirAfter, hmdio]
  case releaseHalfDone => exact fun _ h => absurd rfl h
  case lines => exact fun _ _ _ h => by rcases h with h | h <;> cases h
end

/-! ### The invariant over the host's actions and the surroundings -/

/-- `t` has all that the invariant speaks of as `s` has it; the lines count only while no termination has come. -/
structure SameForInv (s t : State) : Prop where
  params : t.params = s.params
  mode : t.mode = s.mode
  upc : t.upc = s.upc
  cmd : t.cmd = s.cmd
  sr : t.sr = s.sr
  rdata : t.rdata = s.rdata
  rdv : t.rdv = s.rdv
  aborted : t.aborted = s.aborted
  apend : t.apend = s.apend
  terminated : t.terminated = false → s.terminated = false
  dirBit : t.terminated = false → ∀ l, t.dirBit l = s.dirBit l
  outBit : t.terminated = false → ∀ l, t.outBit l = s.outBit l

/-- The fault bits and the list of turns are no part of the invariant. -/
theorem sameForInv_fault_turns (s : State) (f : FaultSet) (l : List Turn) :
    SameForInv s { s with fault := f, turns := l } :=
  ⟨rfl, rfl, rfl, rfl, rfl, rfl, rfl, rfl, rfl, id, fun _ _ => rfl, fun _ _ => rfl⟩

theorem Inv.of_same {s t : State} (hI : Inv s) (h : SameForInv s t) : Inv t := by
  constructor
  all_goals simp only [h.params, h.mode, h.upc, h.cmd, h.sr, h.rdata, h.rdv, h.aborted, h.apend]
  case params => exact hI.params
  case position => exact hI.position
  case idleUpc => exact hI.idleUpc
  case writeCmd => exact hI.writeCmd
  case readCmd => exact hI.readCmd
  case shifter => exact hI.shifter
  case apendBusy => exact hI.apendBusy
  case apendPast => exact hI.apendPast
  case rdvIdle => exact hI.rdvIdle
  case abortedIdle => exact hI.abortedIdle
  case idleReleased =>
    intro ht hm
    simpa only [State.released, h.dirBit ht] using hI.idleReleased (h.terminated ht) hm
  case releaseHalfDone =>
    intro ht hm hn
    rw [h.dirBit ht]
    exact hI.releaseHalfDone (h.terminated ht) hm hn
  case lines =>
    intro ht c hc hm ha
    obtain ⟨h1, h2, h3, h4⟩ := hI.lines (h.terminated ht) c hc hm ha
    constructor <;> simp only [h.dirBit ht, h.outBit ht, h.mode, h.upc] <;> assumption

/-- The invariant where a reset has begun the release trace (R122, R30). -/
theorem inv_of_rst {s : State} (hw : s.params.wf = true) (hmode : s.mode = .rst) (hupc : s.upc = 0)
    (hcmd : s.cmd = none) (hrdv : s.rdv = false) (haborted : s.aborted = false) (hapend : s.apend = false) :
    Inv s := by
  constructor
  case params => exact hw
  all_goals simp [hmode, hupc, hcmd, hrdv, haborted, hapend, traceLen]

/-- The lines as a command finds them (R94): released, before the first micro-op. -/
theorem lineProfile_of_released {s : State} (c : Cmd) (hm : s.mode = .wr ∨ s.mode = .rd) (hupc : s.upc = 0)
    (hr : s.released) : LineProfile s c := by
  obtain ⟨hmdio, hmdc⟩ := hr
  have hown : hostOwnsMdio s.mode 0 = false := by rcases hm with hm | hm <;> rw [hm] <;> rfl
  constructor <;> simp [hupc, hmdio, hmdc, hown]

theorem Inv.acceptWrite {s : State} (hI : Inv s) (hm : s.mode = .idle) (pa ra : Addr5) (d : Half) :
    Inv (acceptWrite pa ra d s) := by
  constructor
  case params => exact hI.params
  case writeCmd => exact fun _ => ⟨pa, ra, d, rfl, fun _ => by simp [dataBitsDone]⟩
  case lines =>
    exact fun ht c _ _ _ => lineProfile_of_released c (.inl rfl) rfl (hI.idleReleased ht hm)
  all_goals simp [traceLen]

theorem Inv.acceptRead {s : State} (hI : Inv s) (hm : s.mode = .idle) (pa ra : Addr5) :
    Inv (acceptRead pa ra s) := by
  constructor
  case params => exact hI.params
  case lines =>
    exact fun ht c _ _ _ => lineProfile_of_released c (.inr rfl) rfl (hI.idleReleased ht hm)
  all_goals simp [traceLen]

theorem abort_jump_target {m : Mode} (hm : m = .wr ∨ m = .rd) :
    abortLimit m ≤ traceLen m - 2 ∧ traceLen m - 2 + 2 = traceLen m := by
  rcases hm with rfl | rfl <;> decide

/-- An Abort before its limit puts the sequencer at the release (R109). -/
theorem Inv.abort_jump {s : State} (hI : Inv s) (hm : s.mode = .wr ∨ s.mode = .rd) :
    Inv { s with apend := true, upc := traceLen s.mode - 2 } := by
  obtain ⟨hlimit, hlen⟩ := abort_jump_target hm
  have hbusy : s.mode ≠ .idle := by rcases hm with hm | hm <;> rw [hm] <;> decide
  exact { hI with
    position := fun _ => by simp only; omega
    idleUpc := fun h => absurd h hbusy
    writeCmd := fun hw => by
      obtain ⟨pa, ra, d, hc, -⟩ := hI.writeCmd hw
      exact ⟨pa, ra, d, hc, fun h => absurd h (by simp only at hw ⊢; rw [hw]; decide)⟩
    apendBusy := fun _ => hm
    apendPast := fun _ => hlimit
    releaseHalfDone := fun _ _ h => by simp only at h; omega
    lines := fun _ _ _ _ h => by simp only [Bool.true_eq_false, or_false] at h; omega }

/-- An Abort past its limit lets the trace run on (R109). -/
theorem Inv.abort_late {s : State} (hI : Inv s) (hm : s.mode = .wr ∨ s.mode = .rd)
    (hlate : abortLimit s.mode ≤ s.upc) : Inv { s with apend := true } :=
  { hI with
    apendBusy := fun _ => hm
    apendPast := fun _ => hlate
    lines := fun ht c hc hm' ha =>
      have hp := hI.lines ht c hc hm' (.inl (ha.resolve_right nofun))
      ⟨hp.mdcDir, hp.mdioDir, hp.mdcLatch, hp.mdioLatch⟩ }

theorem Inv.abort {s : State} (hI : Inv s) : Inv (abortAction s) := by
  by_cases hm : s.mode = .wr ∨ s.mode = .rd
  · rw [abortAction_busy hm]
    split
    · exact hI.abort_jump hm
    · next h => exact hI.abort_late hm (Nat.le_of_not_lt h)
  · rwa [abortAction_quiet hm]

/-- Every move keeps the invariant. -/
theorem Inv.move {s t : State} (hI : Inv s) (h : Move s t) : Inv t := by
  cases h with
  | stay => exact hI
  | uop u i busy mapped fetch dec =>
    have hbusy := (busy_iff s).mp busy
    by_cases hn : s.upc + 1 = traceLen s.mode
    · exact hI.after_last hbusy fetch dec hn
    · exact hI.after_uop hbusy fetch dec hn
  | acceptWrite pa ra d idle => exact hI.acceptWrite idle pa ra d
  | acceptRead pa ra idle => exact hI.acceptRead idle pa ra
  | illegal idle => exact hI.of_same (sameForInv_fault_turns s _ s.turns)
  | whileBusy busy => exact hI.of_same (sameForInv_fault_turns s _ s.turns)
  | abort => exact hI.abort
  | reset => exact inv_of_rst hI.params rfl rfl rfl rfl rfl rfl
  | other r w own =>
    exact hI.of_same (by constructor <;> simp [regWrite_other_dirBit own, regWrite_other_outBit own])
  | terminate => exact hI.of_same (by constructor <;> simp)

/-- Settles O41: every move of a step keeps the invariant, so every step does. -/
theorem everyStepKeepsTheInvariant : Obligations.EveryStepKeepsTheInvariant := by
  unfold Obligations.EveryStepKeepsTheInvariant
  intro s t hI h
  refine step_invariant (P := Inv) (fun s l hs => ?_) (fun _ _ _ hs hm => hs.move hm) hI h
  exact hs.of_same (sameForInv_fault_turns s s.fault l)

/-- Settles O42: launch and reset stand at the start of the release trace, the oracle is always in order and no
READ runs. -/
theorem invariantHoldsAtPowerOn : Obligations.InvariantHoldsAtPowerOn := by
  unfold Obligations.InvariantHoldsAtPowerOn
  have launch : ∀ (p : Params) (mapped : Bool) (dir out : Word) (devices : Devices) (turns : List Turn),
      p.wf = true → Inv (State.launch p mapped dir out devices turns) :=
    fun p mapped dir out devices turns hw => inv_of_rst hw rfl rfl rfl rfl rfl rfl
  exact ⟨launch, launch _ _ _ _ _ _ (by decide), nofun, nofun⟩

end Sys2Proof.Machine
end

section
/-! PROOFS. What one step can do, turn by turn, and what follows for FAULT, DIR, OUT, RDATA and CMD. -/

namespace Sys2Proof.Machine

/-! ### What one step can do, turn by turn -/

theorem sequencerTurn_cases {s t : State} (hw : s.params.wf = true) (h : sequencerTurn s = .next t) :
    s.mode = .idle ∧ t = s ∨
      ∃ u i, s.mode ≠ .idle ∧ s.nextUop = some u ∧ decodeUop u = .ok i ∧ t = finishUop s (uopResult i s) := by
  by_cases hm : s.mode = .idle
  · rw [sequencerTurn_idle hm] at h
    cases h
    exact .inl ⟨hm, rfl⟩
  unfold sequencerTurn at h
  rw [(busy_iff s).mpr hm] at h
  split at h
  · contradiction
  split at h
  · cases h
  split at h
  · cases h
  next u hu =>
  split at h
  · cases h
  next i hi =>
  rw [exec_uop hw (decodeUop_isUop hi)] at h
  cases h
  exact .inr ⟨u, i, hm, hu, hi, rfl⟩

theorem issueTurn_cases {s t : State} {c : Word} (h : issueTurn c s = .next t) :
    s.busy = true ∧ t = raiseCmdWhileBusy s ∨
      s.mode = .idle ∧ (t = raiseIllegalCommand s ∨ (∃ pa ra d, t = acceptWrite pa ra d s) ∨
        ∃ pa ra, t = acceptRead pa ra s) := by
  unfold issueTurn at h
  split at h
  · next i hi =>
    rcases decodeCmd_ok hi with rfl | rfl <;> cases h <;> split
    · next hb => exact .inl ⟨hb, rfl⟩
    · next hb => exact .inr ⟨(not_busy_iff s).mp (by simpa using hb), .inr (.inl ⟨_, _, _, rfl⟩)⟩
    · next hb => exact .inl ⟨hb, rfl⟩
    · next hb => exact .inr ⟨(not_busy_iff s).mp (by simpa using hb), .inr (.inr ⟨_, _, rfl⟩)⟩
  · cases h
    split
    · next hb => exact .inl ⟨hb, rfl⟩
    · next hb => exact .inr ⟨(not_busy_iff s).mp (by simpa using hb), .inl rfl⟩

/-- What turn `x` can make of `s`, the state with the turns at what is left of them. -/
inductive TurnCase (x : Turn) (s : State) : State → Prop
  | stay : TurnCase x s s
  | sequencer (t : State) (h : sequencerTurn s = .next t) : TurnCase x s t
  | issue (c : Word) (t : State) (h : issueTurn c s = .next t) : TurnCase x s t
  | abort : TurnCase x s (abortAction s)
  | abortIssue (c : Word) (t : State) (h : issueTurn c (abortAction s) = .next t) : TurnCase x s t
  | reset : TurnCase x s (resetAction s)
  | other (r : GpioReg) (w : Word) (hx : x = .otherAgent r w) : TurnCase x s (regWrite r w s)
  | terminate : TurnCase x s (terminateAction s)

theorem sampledTurn_cases {x : Turn} {r a : Bool} {c : Option Word} {s t : State}
    (h : sampledTurn r a c s = .next t) : TurnCase x s t := by
  unfold sampledTurn at h
  split at h
  · cases h; exact .reset
  dsimp only at h
  cases c <;> cases a
  · cases h; exact .stay
  · cases h; exact .abort
  · exact .issue _ t h
  · exact .abortIssue _ t h

theorem takeTurn_cases {x : Turn} {s t : State} (h : takeTurn x s = .next t) :
    ∃ l, TurnCase x { s with turns := l } t := by
  cases x with
  | issue c => exact ⟨s.turns, .issue c t h⟩
  | abort => cases h; exact ⟨s.turns, .abort⟩
  | reset => cases h; exact ⟨s.turns, .reset⟩
  | readStatus => cases h; exact ⟨s.turns, .stay⟩
  | sampled r a c => exact ⟨s.turns, sampledTurn_cases h⟩
  | sequencer => exact ⟨s.turns, .sequencer t h⟩
  | wait =>
    simp only [takeTurn] at h
    split at h
    · exact ⟨.wait :: s.turns, .sequencer t h⟩
    · cases h; exact ⟨s.turns, .stay⟩
  | otherAgent r w =>
    simp only [takeTurn, outcome] at h
    split at h
    · next ht =>
      cases h
      obtain ⟨rfl, -⟩ := otherAgentWrite_ok ht
      exact ⟨s.turns, .other r w rfl⟩
    · cases h
  | terminate => cases h; exact ⟨s.turns, .terminate⟩

/-- Everything a step can do, by the turn `x` it takes: sharper than `step_moves`, which allows any two moves. -/
theorem step_cases {s t : State} (h : step s = .next t) :
    s.params.wf = true ∧ ∃ x l, (s.turns = [] ∧ x = .sequencer ∨ ∃ rest, s.turns = x :: rest) ∧
      TurnCase x { s with turns := l } t := by
  unfold step at h
  split at h
  case isFalse => cases h
  case isTrue hw =>
    refine ⟨hw, ?_⟩
    unfold nextTurn at h
    split at h
    · next hx =>
      obtain ⟨l, hl⟩ := takeTurn_cases h
      exact ⟨_, l, .inl ⟨hx, rfl⟩, hl⟩
    · next x rest hx =>
      obtain ⟨l, hl⟩ := takeTurn_cases h
      exact ⟨x, l, .inr ⟨rest, hx⟩, hl⟩

/-- A sequencer turn that is next is the step. -/
theorem step_of_sequencerNext {s s' : State} (h : SequencerNext s s') : step s = sequencerTurn s' := by
  obtain ⟨hw, ⟨ht, rfl⟩ | ⟨rest, ht, rfl⟩⟩ := h <;> simp [step, nextTurn, takeTurn, hw, ht]

/-! ### What the host's actions leave alone -/

section
variable {s t : State} {c : Word} (h : issueTurn c s = .next t)
include h
theorem issueTurn_dir : t.dir = s.dir := by
  obtain ⟨-, rfl⟩ | ⟨-, rfl | ⟨_, _, _, rfl⟩ | ⟨_, _, rfl⟩⟩ := issueTurn_cases h <;> rfl
theorem issueTurn_out : t.out = s.out := by
  obtain ⟨-, rfl⟩ | ⟨-, rfl | ⟨_, _, _, rfl⟩ | ⟨_, _, rfl⟩⟩ := issueTurn_cases h <;> rfl
theorem issueTurn_rdata : t.rdata = s.rdata := by
  obtain ⟨-, rfl⟩ | ⟨-, rfl | ⟨_, _, _, rfl⟩ | ⟨_, _, rfl⟩⟩ := issueTurn_cases h <;> rfl
theorem issueTurn_cmd_busy (hb : s.busy = true) : t.cmd = s.cmd := by
  obtain ⟨-, rfl⟩ | ⟨hm, -⟩ := issueTurn_cases h
  · rfl
  · exact absurd hm ((busy_iff s).mp hb)
end

/-! ### Fault bits (R25) -/

/-- Every fault bit of `f` is set in `g`. -/
structure FaultSet.Within (f g : FaultSet) : Prop where
  illegalCommand : f.illegalCommand = true → g.illegalCommand = true
  cmdWhileBusy : f.cmdWhileBusy = true → g.cmdWhileBusy = true
  contention : f.contention = true → g.contention = true
  mapFailed : f.mapFailed = true → g.mapFailed = true

theorem FaultSet.Within.refl (f : FaultSet) : f.Within f := ⟨id, id, id, id⟩

theorem FaultSet.Within.trans {f g h : FaultSet} (hfg : f.Within g) (hgh : g.Within h) : f.Within h :=
  ⟨hgh.illegalCommand ∘ hfg.illegalCommand, hgh.cmdWhileBusy ∘ hfg.cmdWhileBusy,
    hgh.contention ∘ hfg.contention, hgh.mapFailed ∘ hfg.mapFailed⟩

/-- No move clears a fault bit. -/
theorem Move.faults_within {s t : State} (h : Move s t) : s.fault.Within t.fault := by
  cases h with
  | uop u i busy mapped fetch dec =>
    rw [finishUop_fault, uopResult_fault]
    exact ⟨id, id, fun hc => by simp [hc], id⟩
  | illegal idle => exact ⟨fun _ => rfl, id, id, id⟩
  | whileBusy busy => exact ⟨id, fun _ => rfl, id, id⟩
  | abort => rw [abortAction_fault]; exact .refl _
  | other r w own => rw [regWrite_fault]; exact .refl _
  | _ => exact .refl _

/-- Settles O40: no move clears a fault bit, and the code 0 is the empty FAULT of a final state. -/
theorem faultBitsAreSticky : Obligations.FaultBitsAreSticky := by
  unfold Obligations.FaultBitsAreSticky
  refine ⟨fun s t h => ?_, fun s hcode hfinal => ?_⟩
  · have hkept : s.fault.Within t.fault :=
      step_invariant (P := fun x => s.fault.Within x.fault) (fun _ _ hx => hx)
        (fun _ _ _ hx hm => hx.trans hm.faults_within) (.refl _) h
    exact ⟨hkept.illegalCommand, hkept.cmdWhileBusy, hkept.contention, hkept.mapFailed⟩
  · rw [hfinal.2] at hcode
    exact hcode rfl

/-! ### Bits of DIR and OUT that are not the lines' (R14, R15) -/

/-- Bit `k` of DIR and of OUT is in `t` as in `s`. -/
def BitKept (k : Nat) (s t : State) : Prop :=
  t.dir.getLsbD k = s.dir.getLsbD k ∧ t.out.getLsbD k = s.out.getLsbD k

/-- What a clear register does to bit `k` (R17). -/
theorem getLsbD_and_not (v w : Word) (k : Nat) : (v &&& ~~~w).getLsbD k = (v.getLsbD k && !w.getLsbD k) := by
  rcases Nat.lt_or_ge k 32 with hk | hk
  · rw [BitVec.getLsbD_and, BitVec.getLsbD_not]; simp [hk]
  · simp [hk]

theorem regWrite_bitKept {r : GpioReg} {w : Word} {k : Nat} (s : State) (hw : w.getLsbD k = false) :
    BitKept k s (regWrite r w s) := by
  cases r <;> simp only [BitKept, regWrite, BitVec.getLsbD_or, getLsbD_and_not, hw] <;> simp

/-- A write of `bitmask(L)` keeps every bit but that of `L` (R68). -/
theorem written_bitKept {r : GpioReg} {l : Line} {k : Nat} (s : State) (hk : k ≠ (s.params.bitOf l).val) :
    BitKept k s (written r l s) := by
  exact regWrite_bitKept s (by simp [bitmask_getLsbD, hk])

theorem uopResult_bitKept (i : Instr) {k : Nat} (s : State) (hk : ∀ l, k ≠ (s.params.bitOf l).val) :
    BitKept k s (uopResult i s) := by
  have hline : ∀ r l, BitKept k s (written r l s) := fun r l => written_bitKept s (hk l)
  cases i with
  | write => exact ⟨rfl, rfl⟩
  | read => exact ⟨rfl, rfl⟩
  | setInput l => exact hline _ l
  | setOutput l => exact hline _ l
  | driveLow l => simpa [BitKept, uopResult] using hline .outClr l
  | driveHigh l => simpa [BitKept, uopResult] using hline .outSet l
  | sample l => simp [BitKept, uopResult]

theorem ownMask_getLsbD_other {p : Params} {k : Nat} (hk : ∀ l, k ≠ (p.bitOf l).val) :
    (ownMask p).getLsbD k = false := by
  simp [ownMask, bitmask_getLsbD, hk]

theorem terminateAction_bitKept {k : Nat} (s : State) (hk : ∀ l, k ≠ (s.params.bitOf l).val) :
    BitKept k s (terminateAction s) := by
  have hown := ownMask_getLsbD_other hk
  constructor <;>
    simp only [terminateAction, BitVec.getLsbD_or, getLsbD_and_not] <;> simp [hown]

/-- Settles O46: of all turns only another agent's write reaches a bit that is neither line's. -/
theorem otherGpioBitsAreNeverTouched : Obligations.OtherGpioBitsAreNeverTouched := by
  unfold Obligations.OtherGpioBitsAreNeverTouched
  intro s t k h hother hmdio hmdc
  have hk : ∀ l, k ≠ (s.params.bitOf l).val := by rintro (_ | _) <;> assumption
  obtain ⟨hw, x, l, hx, hcase⟩ := step_cases h
  cases hcase with
  | stay => exact ⟨rfl, rfl⟩
  | sequencer _ hseq =>
    obtain ⟨-, rfl⟩ | ⟨u, i, -, -, -, rfl⟩ := sequencerTurn_cases (s := { s with turns := l }) hw hseq
    · exact ⟨rfl, rfl⟩
    · simpa [BitKept] using uopResult_bitKept i { s with turns := l } hk
  | issue c _ hissue => rw [issueTurn_dir hissue, issueTurn_out hissue]; exact ⟨rfl, rfl⟩
  | abort => simp
  | abortIssue c _ hissue => rw [issueTurn_dir hissue, issueTurn_out hissue]; simp
  | reset => exact ⟨rfl, rfl⟩
  | other r w hx' =>
    subst hx'
    obtain ⟨-, hx⟩ | ⟨rest, hrest⟩ := hx
    · cases hx
    · exact absurd hrest (hother r w rest)
  | terminate => exact terminateAction_bitKept { s with turns := l } hk

/-! ### RDATA and the command latch -/

/-- A sequencer step changes RDATA only where it completes a READ without abort, and then to SR (R102). -/
theorem finishUop_rdata {s : State} (i : Instr) :
    (finishUop s (uopResult i s)).rdata = s.rdata ∨
      s.mode = .rd ∧ s.upc = 194 ∧ s.apend = false ∧ (finishUop s (uopResult i s)).mode = .idle ∧
        (finishUop s (uopResult i s)).rdata = s.sr := by
  by_cases hn : (uopResult i s).upc + 1 = traceLen (uopResult i s).mode
  · by_cases hrd : s.mode = .rd ∧ s.apend = false
    · obtain ⟨hm, ha⟩ := hrd
      have hupc : s.upc = 194 := by simpa [hm, traceLen] using hn
      have hsr : (uopResult i s).sr = s.sr :=
        uopResult_sr_quiet i (by simp [State.atDataOut, hm]) (by simp [State.atDataIn, hupc])
      refine .inr ⟨hm, hupc, ha, finishUop_last_mode hn, ?_⟩
      simp [finishUop_last_rdata hn, hm, ha, hsr]
    · exact .inl (by simp [finishUop_last_rdata hn, hrd])
  · exact .inl (by simp [finishUop_running_rdata hn])

/-- Settles O48: only the reset action and the completion of a READ write RDATA. -/
theorem rdataChangesOnlyAtAReadOrReset : Obligations.RdataChangesOnlyAtAReadOrReset := by
  unfold Obligations.RdataChangesOnlyAtAReadOrReset
  intro s t h
  obtain ⟨hw, x, l, -, hcase⟩ := step_cases h
  cases hcase with
  | stay => exact .inl rfl
  | sequencer _ hseq =>
    obtain ⟨-, rfl⟩ | ⟨u, i, -, -, -, rfl⟩ := sequencerTurn_cases (s := { s with turns := l }) hw hseq
    · exact .inl rfl
    · exact (finishUop_rdata (s := { s with turns := l }) i).imp_right .inr
  | issue c _ hissue => exact .inl (issueTurn_rdata (s := { s with turns := l }) hissue)
  | abort => exact .inl (by simp)
  | abortIssue c _ hissue => exact .inl (by simp [issueTurn_rdata hissue])
  | reset => exact .inr (.inl ⟨rfl, rfl⟩)
  | other r w _ => exact .inl (by simp)
  | terminate => exact .inl rfl

theorem abortAction_busy_eq (s : State) : (abortAction s).busy = s.busy := by simp [State.busy]

/-- Settles O49: a command is accepted only when idle, so of a busy block only the reset action writes CMD. -/
theorem commandLatchIsStableWhileBusy : Obligations.CommandLatchIsStableWhileBusy := by
  unfold Obligations.CommandLatchIsStableWhileBusy
  intro s t hb h
  obtain ⟨hw, x, l, -, hcase⟩ := step_cases h
  cases hcase with
  | stay => exact .inl rfl
  | sequencer _ hseq =>
    obtain ⟨-, rfl⟩ | ⟨u, i, -, -, -, rfl⟩ := sequencerTurn_cases (s := { s with turns := l }) hw hseq
    · exact .inl rfl
    · exact .inl (by simp)
  | issue c _ hissue => exact .inl (issueTurn_cmd_busy (s := { s with turns := l }) hissue hb)
  | abort => exact .inl (by simp)
  | abortIssue c _ hissue =>
    exact .inl (by simpa using issueTurn_cmd_busy hissue ((abortAction_busy_eq _).trans hb))
  | reset => exact .inr ⟨rfl, rfl⟩
  | other r w _ => exact .inl (by simp)
  | terminate => exact .inl rfl

/-! ### The end of a READ -/

theorem sampledBits_append (es fs : List LineEvent) : sampledBits (es ++ fs) = sampledBits es ++ sampledBits fs := by
  induction es with
  | nil => rfl
  | cons e es ih => cases e <;> simp [sampledBits, ih]

/-- A line operation records no sample (R71). -/
theorem sampledBits_lineEvents (l : Line) (a b : Drive) : sampledBits (lineEvents l a b) = [] := by
  unfold lineEvents
  split
  · rfl
  · rfl
  · rfl
  · split
    · rfl
    · cases l with
      | mdio => rfl
      | mdc => simp only; split <;> rfl

/-- The last micro-op of a READ is SETIN MDC, which samples nothing and leaves SR; completion moves SR to RDATA
(R102). -/
theorem sequencerTurn_read_last {s : State} (hw : s.params.wf = true) (hmap : s.fault.mapFailed = false)
    (hm : s.mode = .rd) (hupc : s.upc = 194) (hcmd : s.cmd ≠ none) (ha : s.apend = false) :
    ∃ t, sequencerTurn s = .next t ∧ t.mode = .idle ∧ t.rdv = true ∧
      sampledBits t.hist = sampledBits s.hist ∧ t.rdata = s.sr := by
  obtain ⟨c, hc⟩ := Option.ne_none_iff_exists'.mp hcmd
  have hfetch : s.nextUop = some (setIn .mdc) := by simp only [State.nextUop, hm, hc, hupc]; rfl
  have hn : (uopResult (.setInput .mdc) s).upc + 1 = traceLen (uopResult (.setInput .mdc) s).mode := by
    simp [hm, hupc, traceLen]
  refine ⟨_, sequencerTurn_uop hw ((busy_iff s).mpr (by simp [hm])) hmap hfetch (decodeUop_setIn .mdc),
    finishUop_last_mode hn, ?_, ?_, ?_⟩
  · simp [finishUop_last_rdv hn, hm, ha]
  · simp [uopResult, sampledBits_append, sampledBits_lineEvents]
  · rw [finishUop_last_rdata hn, if_pos (by simp [hm, ha])]
    simp [uopResult]

/-- Settles O45: by `ReadShifterOk` the SR that completion moves to RDATA holds the last sixteen samples. -/
theorem completedReadReturnsItsSamples : Obligations.CompletedReadReturnsItsSamples := by
  unfold Obligations.CompletedReadReturnsItsSamples
  intro s s' hnext hmap hok hm hupc hcmd ha
  obtain ⟨taken, older, hhist, hlen, hsr⟩ := hok hm (.inr ha)
  rw [hupc] at hlen
  obtain ⟨l, rfl⟩ : ∃ l, s' = { s with turns := l } := by
    obtain ⟨-, ⟨-, rfl⟩ | ⟨rest, -, rfl⟩⟩ := hnext
    · exact ⟨s'.turns, rfl⟩
    · exact ⟨rest, rfl⟩
  obtain ⟨t, hstep, hidle, hrdv, hsampled, hrdata⟩ :=
    sequencerTurn_read_last (s := { s with turns := l }) hnext.1 hmap hm hupc hcmd ha
  exact ⟨t, older, taken, (step_of_sequencerNext hnext).trans hstep, hidle, hrdv, hsampled.trans hhist, hlen,
    hrdata.trans hsr⟩

end Sys2Proof.Machine
end

section
/-! PROOFS. The frame of the line operations, power on, register writes and the status. -/

namespace Sys2Proof.Machine

/-! ### The frame of the line operations -/

theorem lineEvents_length_le (l : Line) (a b : Drive) : (lineEvents l a b).length ≤ 1 := by
  unfold lineEvents
  split
  · exact Nat.zero_le 1
  · exact Nat.le_refl 1
  · exact Nat.le_refl 1
  · split
    · exact Nat.zero_le 1
    · cases l with
      | mdio => exact Nat.le_refl 1
      | mdc => simp only; split <;> exact Nat.le_refl 1

section
variable {s : State} {l : Line} {i : Instr}
  (hi : i = .driveLow l ∨ i = .driveHigh l ∨ i = .setInput l ∨ i = .setOutput l)
include hi

theorem lineOp_isUop : Instr.isUop i = true := by rcases hi with rfl | rfl | rfl | rfl <;> rfl

theorem lineOp_draws : (uopResult i s).draws = s.draws := by
  rcases hi with rfl | rfl | rfl | rfl <;> simp [uopResult]

theorem lineOp_bitKept {k : Nat} (hk : k ≠ (s.params.bitOf l).val) : BitKept k s (uopResult i s) := by
  rcases hi with rfl | rfl | rfl | rfl <;> simpa [BitKept, uopResult] using written_bitKept s hk

theorem lineOp_sr (hquiet : ¬(l = .mdio ∧ s.atDataOut = true)) : (uopResult i s).sr = s.sr := by
  rcases hi with rfl | rfl | rfl | rfl <;> simp [uopResult, shiftOut_sr, -not_and, hquiet]

theorem lineOp_hist : ∃ es, es.length ≤ 1 ∧ (uopResult i s).hist = s.hist ++ es := by
  rcases hi with rfl | rfl | rfl | rfl
  · exact ⟨_, lineEvents_length_le _ _ _, shiftOut_hist l _⟩
  · exact ⟨_, lineEvents_length_le _ _ _, shiftOut_hist l _⟩
  · exact ⟨_, lineEvents_length_le _ _ _, rfl⟩
  · exact ⟨_, lineEvents_length_le _ _ _, rfl⟩

theorem lineOp_port : ∃ a w, (uopResult i s).port = s.port ++ [.write a w] := by
  rcases hi with rfl | rfl | rfl | rfl
  · exact ⟨_, _, shiftOut_port l _⟩
  · exact ⟨_, _, shiftOut_port l _⟩
  · exact ⟨_, _, rfl⟩
  · exact ⟨_, _, rfl⟩
end

theorem drive_dir {s : State} {l : Line} {i : Instr} (hi : i = .driveLow l ∨ i = .driveHigh l) :
    (uopResult i s).dir = s.dir := by
  rcases hi with rfl | rfl <;> simp [uopResult, regWrite_dir]

theorem direction_out_sr {s : State} {l : Line} {i : Instr} (hi : i = .setInput l ∨ i = .setOutput l) :
    (uopResult i s).out = s.out ∧ (uopResult i s).sr = s.sr := by
  rcases hi with rfl | rfl <;> simp [uopResult, regWrite_out]

/-- Settles O16: a line operation is one write of `bitmask(L)`, its event, and for a drive the shift of R85. -/
theorem lineOperationsLeaveTheRest : Obligations.LineOperationsLeaveTheRest := by
  unfold Obligations.LineOperationsLeaveTheRest
  intro s t l i hw hi h
  rw [exec_uop hw (lineOp_isUop hi)] at h
  cases h
  exact ⟨uopResult_params i s, uopResult_mode i s, uopResult_upc i s, uopResult_cmd i s, uopResult_rdata i s,
    uopResult_rdv i s, uopResult_aborted i s, uopResult_apend i s, uopResult_fault i s, uopResult_devices i s,
    lineOp_draws hi, uopResult_turns i s, uopResult_terminated i s, drive_dir, direction_out_sr,
    fun _ hk => lineOp_bitKept hi hk, lineOp_sr hi, lineOp_hist hi, lineOp_port hi⟩

/-- Settles O38: each value is the launch's own field. -/
theorem powerOnValues : Obligations.PowerOnValues := by
  unfold Obligations.PowerOnValues
  rintro p mapped dir out devices turns s rfl
  refine ⟨rfl, rfl, rfl, rfl, rfl, rfl, rfl, rfl, rfl, rfl, rfl, rfl, ?_, ?_⟩
  · rintro rfl
    exact (by decide : FaultSet.code ⟨false, false, false, false⟩ = 0#4)
  · rintro rfl
    exact (by decide : FaultSet.code ⟨false, false, false, true⟩ = 0b1000#4)

/-! ### Register writes -/

theorem regWrite_idempotent (r : GpioReg) (w : Word) (s : State) :
    regWrite r w (regWrite r w s) = regWrite r w s := by
  cases r <;> simp [regWrite, BitVec.or_assoc, BitVec.and_assoc]

/-- Settles O52: the set registers OR the word in, the clear registers AND its complement. -/
theorem setAndClearRegisters : Obligations.SetAndClearRegisters := by
  unfold Obligations.SetAndClearRegisters
  intro s w k
  exact ⟨BitVec.getLsbD_or, getLsbD_and_not s.dir w k, BitVec.getLsbD_or, getLsbD_and_not s.out w k,
    fun r => regWrite_idempotent r w s⟩

/-! ### The status a host reads -/

/-- The fault output has each bit in its place (R107). -/
theorem code_getLsbD (f : FaultSet) :
    f.code.getLsbD 0 = f.illegalCommand ∧ f.code.getLsbD 1 = f.cmdWhileBusy ∧
      f.code.getLsbD 2 = f.contention ∧ f.code.getLsbD 3 = f.mapFailed := by
  simp only [FaultSet.code, BitVec.getLsbD_append]
  simp

/-- Settles O53: the status is made of the fields, and the turn `readStatus` leaves the state as it is. -/
theorem readStatusReportsAndChangesNothing : Obligations.ReadStatusReportsAndChangesNothing := by
  unfold Obligations.ReadStatusReportsAndChangesNothing
  intro s
  obtain ⟨h0, h1, h2, h3⟩ := code_getLsbD s.fault
  exact ⟨busy_iff s, rfl, rfl, rfl, h0, h1, h2, h3,
    fun rest hw ht => by simp [step, nextTurn, takeTurn, hw, ht]⟩

end Sys2Proof.Machine
end

section
/-! PROOFS. The GPIO window: which accesses go through, the frame of SAMPLE, other agents' writes, and the
parameter sets no step is taken with. -/

namespace Sys2Proof.Machine

/-! ### The accesses that go through (R34, R35, R36, R41) -/

section
variable {a v w : Word} {n : Nat} {s t : State}

theorem memWrite_cases (h : memWrite a n w s = .ok t) :
    n = 4 ∧ a.toNat % 4 = 0 ∧ ∃ r, r ≠ .inSample ∧ a = gpioAddr s.params r ∧
      t = { regWrite r w s with port := s.port ++ [.write a w] } := by
  unfold memWrite at h
  split at h
  · cases h
  next hn =>
  split at h
  · cases h
  next ha =>
  split at h
  · cases h
  · cases h
  · next r hin hreg =>
    cases h
    exact ⟨not_not.mp hn, not_not.mp ha, r, hin, regAt_some hreg, rfl⟩

theorem memRead_cases (h : memRead a n s = .ok (v, t)) :
    n = 4 ∧ a.toNat % 4 = 0 ∧ a = gpioAddr s.params .inSample ∧ v = s.inWord ∧
      t = { s with draws := s.draws + 1, port := s.port ++ [.read a] } := by
  unfold memRead at h
  split at h
  · cases h
  next hn =>
  split at h
  · cases h
  next ha =>
  split at h
  · cases h
  · next hreg =>
    cases h
    exact ⟨not_not.mp hn, not_not.mp ha, regAt_some hreg, rfl, rfl⟩
  · cases h
end

/-- Settles O50: an access that goes through has passed the three checks of `memWrite` and `memRead`. -/
theorem onlyTheFiveRegistersAreAccessed : Obligations.OnlyTheFiveRegistersAreAccessed := by
  unfold Obligations.OnlyTheFiveRegistersAreAccessed
  constructor
  · intro a w n s t h
    obtain ⟨hn, ha, r, hr, haddr, rfl⟩ := memWrite_cases h
    exact ⟨hn, ha, r, hr, haddr, rfl⟩
  · intro a n s t v h
    obtain ⟨hn, ha, haddr, -, rfl⟩ := memRead_cases h
    exact ⟨hn, ha, haddr, rfl, rfl, rfl⟩

/-! ### The frame of SAMPLE (R43, R75, R86) -/

/-- A SAMPLE that completes does what it does with admitted parameters, whatever the parameters are. -/
theorem exec_sample_next {s t : State} {l : Line} (h : exec (.sample l) s = .next t) :
    t = uopResult (.sample l) s := by
  simp only [exec, execSample] at h
  cases hread : gpioRead .inSample s with
  | error e => rw [hread] at h; cases h
  | ok r =>
    obtain ⟨-, -, -, hv, ht⟩ := memRead_cases hread
    rw [hread] at h
    cases h
    simp only [hv, ht]
    rfl

theorem sample_dir (l : Line) (s : State) : (uopResult (.sample l) s).dir = s.dir := by simp [uopResult]
theorem sample_out (l : Line) (s : State) : (uopResult (.sample l) s).out = s.out := by simp [uopResult]

/-- Away from the data-in positions a sample does not enter SR (R86). -/
theorem sample_sr {l : Line} {s : State} (hin : s.atDataIn = false) : (uopResult (.sample l) s).sr = s.sr := by
  have hin' : ∀ es d p, (emit es { s with draws := d, port := p }).atDataIn = false := fun _ _ _ => hin
  simp [uopResult, shiftIn_sr, hin']

theorem sample_hist (l : Line) (s : State) : ∃ b, (uopResult (.sample l) s).hist = s.hist ++ [.sample b] :=
  ⟨_, shiftIn_hist _ _⟩

theorem sample_port (l : Line) (s : State) : ∃ a, (uopResult (.sample l) s).port = s.port ++ [.read a] :=
  ⟨_, shiftIn_port _ _⟩

/-- Settles O17: SAMPLE is one read of IN, its event, and at a data-in sample the shift of R86. -/
theorem sampleLeavesTheRest : Obligations.SampleLeavesTheRest := by
  unfold Obligations.SampleLeavesTheRest
  intro s t l h
  obtain rfl := exec_sample_next h
  exact ⟨uopResult_params _ s, sample_dir l s, sample_out l s, uopResult_mode _ s, uopResult_upc _ s,
    uopResult_cmd _ s, uopResult_rdata _ s, uopResult_rdv _ s, uopResult_aborted _ s, uopResult_apend _ s,
    uopResult_fault _ s, uopResult_devices _ s, uopResult_turns _ s, uopResult_terminated _ s,
    sample_sr, sample_hist l s, sample_port l s⟩

/-! ### Other agents (R42, R51) -/

/-- A word without the lines' bits names none of the block's own bits. -/
theorem and_ownMask_eq_zero {p : Params} {w : Word} (h : ∀ l, w.getLsbD (p.bitOf l).val = false) :
    w &&& ownMask p = 0#32 := by
  refine BitVec.eq_of_getLsbD_eq fun k _ => ?_
  rw [BitVec.getLsbD_and, BitVec.getLsbD_zero]
  by_cases hk : ∃ l, k = (p.bitOf l).val
  · obtain ⟨l, rfl⟩ := hk
    rw [h l, Bool.false_and]
  · rw [ownMask_getLsbD_other (not_exists.mp hk), Bool.and_false]

/-- A register write changes DIR and OUT at most (R17). -/
theorem regWrite_frame (r : GpioReg) (w : Word) (s : State) :
    regWrite r w s = { s with dir := (regWrite r w s).dir, out := (regWrite r w s).out } := by
  cases r <;> rfl

theorem otherAgentWrite_own {r : GpioReg} {w : Word} {s : State} (hr : r ≠ .inSample)
    (own : w &&& ownMask s.params = 0#32) : otherAgentWrite r w s = .ok (regWrite r w s) := by
  rw [otherAgentWrite, if_neg hr, if_pos own]

/-- Settles O47: the write reaches only bits that are neither line's. -/
theorem otherAgentsDoNotDisturbTheLines : Obligations.OtherAgentsDoNotDisturbTheLines := by
  unfold Obligations.OtherAgentsDoNotDisturbTheLines
  intro s r w rest hw hr hmdio hmdc hturns
  have own : w &&& ownMask s.params = 0#32 := and_ownMask_eq_zero (by rintro (_ | _) <;> assumption)
  have hstep : step s = .next (regWrite r w { s with turns := rest }) := by
    simp only [step, nextTurn, takeTurn, hw, hturns, if_true]
    rw [otherAgentWrite_own (s := { s with turns := rest }) hr own]
    rfl
  exact ⟨_, hstep, regWrite_frame r w { s with turns := rest }, fun l =>
    ⟨regWrite_other_dirBit (s := { s with turns := rest }) own l,
      regWrite_other_outBit (s := { s with turns := rest }) own l⟩⟩

/-! ### Parameters that are not admitted (R41, R124) -/

theorem wf_base_offset_aligned {p : Params} (h : p.wf = true) :
    p.gpioBase.toNat % 4 = 0 ∧ ∀ r, (p.offset r).toNat % 4 = 0 := by
  simp only [Params.wf, Params.aligned, Bool.and_eq_true, decide_eq_true_eq] at h
  obtain ⟨⟨⟨⟨⟨⟨⟨hbase, hdirSet⟩, hdirClr⟩, houtSet⟩, houtClr⟩, hin⟩, -⟩, -⟩ := h
  exact ⟨hbase, by rintro (_ | _ | _ | _ | _) <;> assumption⟩

theorem step_badParameters {s : State} (h : ¬ s.params.wf = true) : step s = .refused .badParameters := if_neg h

/-- Settles O51: each of the four defects contradicts what an admitted parameter set gives. -/
theorem badParametersAreRefused : Obligations.BadParametersAreRefused := by
  unfold Obligations.BadParametersAreRefused
  intro s hbad
  refine step_badParameters fun hw => ?_
  obtain ⟨hbase, hoffset⟩ := wf_base_offset_aligned hw
  obtain h | ⟨r, h⟩ | ⟨r, r', hne, h⟩ | h := hbad
  · exact h hbase
  · exact h (hoffset r)
  · exact hne (wf_offset_inj hw h)
  · exact wf_bits_ne hw h

end Sys2Proof.Machine
end

section
/-! SUPPORT. Command words as the concatenation of their fields (R53). -/

namespace Sys2Proof.Machine

open BitVec (extractLsb'_append_eq_of_le extractLsb'_append_eq_left extractLsb'_append_eq_right
  extractLsb'_append_eq_of_add_le extractLsb'_append_extractLsb'_eq_extractLsb')

/-- The command word with these fields (R53); `low` is C[17:0], the TA and DATA of a WRITE and the ignored bits of a
READ. -/
def cmdWord (st op : BitVec 2) (pa ra : Addr5) (low : BitVec 18) : Word := st ++ op ++ pa ++ ra ++ low

/-! ### A command word by its fields (R53) -/

section
variable (st op ta : BitVec 2) (pa ra : Addr5) (low : BitVec 18) (d : Half) (c : Word)

theorem cmdWord_header : (cmdWord st op pa ra low).extractLsb' 18 14 = st ++ op ++ pa ++ ra :=
  extractLsb'_append_eq_left

@[simp] theorem cmdSt_cmdWord : cmdSt (cmdWord st op pa ra low) = st :=
  calc (st ++ op ++ pa ++ ra ++ low).extractLsb' 30 2
    _ = (st ++ op ++ pa ++ ra).extractLsb' 12 2 := extractLsb'_append_eq_of_le (by decide)
    _ = (st ++ op ++ pa).extractLsb' 7 2 := extractLsb'_append_eq_of_le (by decide)
    _ = (st ++ op).extractLsb' 2 2 := extractLsb'_append_eq_of_le (by decide)
    _ = st := extractLsb'_append_eq_left

@[simp] theorem cmdOp_cmdWord : cmdOp (cmdWord st op pa ra low) = op :=
  calc (st ++ op ++ pa ++ ra ++ low).extractLsb' 28 2
    _ = (st ++ op ++ pa ++ ra).extractLsb' 10 2 := extractLsb'_append_eq_of_le (by decide)
    _ = (st ++ op ++ pa).extractLsb' 5 2 := extractLsb'_append_eq_of_le (by decide)
    _ = (st ++ op).extractLsb' 0 2 := extractLsb'_append_eq_of_le (by decide)
    _ = op := extractLsb'_append_eq_right

@[simp] theorem cmdPa_cmdWord : cmdPa (cmdWord st op pa ra low) = pa :=
  calc (st ++ op ++ pa ++ ra ++ low).extractLsb' 23 5
    _ = (st ++ op ++ pa ++ ra).extractLsb' 5 5 := extractLsb'_append_eq_of_le (by decide)
    _ = (st ++ op ++ pa).extractLsb' 0 5 := extractLsb'_append_eq_of_le (by decide)
    _ = pa := extractLsb'_append_eq_right

@[simp] theorem cmdRa_cmdWord : cmdRa (cmdWord st op pa ra low) = ra :=
  calc (st ++ op ++ pa ++ ra ++ low).extractLsb' 18 5
    _ = (st ++ op ++ pa ++ ra).extractLsb' 0 5 := extractLsb'_append_eq_of_le (by decide)
    _ = ra := extractLsb'_append_eq_right

@[simp] theorem cmdIgnored_cmdWord : cmdIgnored (cmdWord st op pa ra low) = low :=
  extractLsb'_append_eq_right

@[simp] theorem cmdTa_cmdWord : cmdTa (cmdWord st op pa ra (ta ++ d)) = ta :=
  calc (st ++ op ++ pa ++ ra ++ (ta ++ d)).extractLsb' 16 2
    _ = (ta ++ d).extractLsb' 16 2 := extractLsb'_append_eq_of_add_le (by decide)
    _ = ta := extractLsb'_append_eq_left

@[simp] theorem cmdData_cmdWord : cmdData (cmdWord st op pa ra (ta ++ d)) = d :=
  calc (st ++ op ++ pa ++ ra ++ (ta ++ d)).extractLsb' 0 16
    _ = (ta ++ d).extractLsb' 0 16 := extractLsb'_append_eq_of_add_le (by decide)
    _ = d := extractLsb'_append_eq_right

theorem cmdTa_append_cmdData : cmdTa c ++ cmdData c = cmdIgnored c :=
  extractLsb'_append_extractLsb'_eq_extractLsb' (x := c) (by rfl)

/-- A word is made of its fields. -/
theorem cmdWord_fields : cmdWord (cmdSt c) (cmdOp c) (cmdPa c) (cmdRa c) (cmdIgnored c) = c := by
  unfold cmdWord cmdSt cmdOp cmdPa cmdRa cmdIgnored
  iterate 4 rw [extractLsb'_append_extractLsb'_eq_extractLsb' (by rfl)]
  exact BitVec.extractLsb'_eq_self

theorem cmdWord_and (st' op' : BitVec 2) (pa' ra' : Addr5) (low' : BitVec 18) :
    cmdWord st op pa ra low &&& cmdWord st' op' pa' ra' low' =
      cmdWord (st &&& st') (op &&& op') (pa &&& pa') (ra &&& ra') (low &&& low') := by
  unfold cmdWord
  rw [BitVec.and_append]
  simp only [BitVec.and_append]

theorem cmdWord_eq_shifts : cmdWord st op pa ra low =
    st.setWidth 32 <<< 30 ||| op.setWidth 32 <<< 28 ||| pa.setWidth 32 <<< 23 ||| ra.setWidth 32 <<< 18 |||
      low.setWidth 32 :=
  calc cmdWord st op pa ra low
    _ = (st ++ op ++ pa ++ ra ++ low).setWidth 32 := (BitVec.setWidth_eq _).symm
    _ = (st ++ op ++ pa ++ ra).setWidth 32 <<< 18 ||| low.setWidth 32 :=
      BitVec.setWidth_append_eq_shiftLeft_setWidth_or
    _ = _ := by
      rw [BitVec.setWidth_append_append_append_eq_shiftLeft_setWidth_or]
      simp only [BitVec.shiftLeft_or_distrib, ← BitVec.shiftLeft_add]
end

theorem cmdWord_inj {st st' op op' : BitVec 2} {pa pa' ra ra' : Addr5} {low low' : BitVec 18} :
    cmdWord st op pa ra low = cmdWord st' op' pa' ra' low' ↔
      st = st' ∧ op = op' ∧ pa = pa' ∧ ra = ra' ∧ low = low' := by
  constructor
  · intro h
    exact ⟨by simpa using congrArg cmdSt h, by simpa using congrArg cmdOp h, by simpa using congrArg cmdPa h,
      by simpa using congrArg cmdRa h, by simpa using congrArg cmdIgnored h⟩
  · rintro ⟨rfl, rfl, rfl, rfl, rfl⟩
    rfl

/-- A word under a mask is its fields under the mask's fields. -/
theorem and_cmdWord (c : Word) (st op : BitVec 2) (pa ra : Addr5) (low : BitVec 18) :
    c &&& cmdWord st op pa ra low =
      cmdWord (cmdSt c &&& st) (cmdOp c &&& op) (cmdPa c &&& pa) (cmdRa c &&& ra) (cmdIgnored c &&& low) := by
  rw [← cmdWord_and, cmdWord_fields]

/-- A word with the upper bits of another has its fields, and its own ignored bits. -/
theorem eq_cmdWord_of_same_header {c c' : Word} (h : c.extractLsb' 18 14 = c'.extractLsb' 18 14) :
    c' = cmdWord (cmdSt c) (cmdOp c) (cmdPa c) (cmdRa c) (cmdIgnored c') := by
  have hc : c.extractLsb' 18 14 = cmdSt c ++ cmdOp c ++ cmdPa c ++ cmdRa c := by
    rw [← cmdWord_header (low := cmdIgnored c), cmdWord_fields]
  calc c'
    _ = c'.extractLsb' 18 14 ++ cmdIgnored c' :=
      (BitVec.extractLsb'_append_extractLsb' (w := 14) (len := 18) (x := c')).symm
    _ = _ := by rw [← h, hc]; rfl

end Sys2Proof.Machine
end

section
/-! PROOFS. The decoder and the encoders: round trips, match and mask, the host's words, the header. -/

namespace Sys2Proof.Machine

/-! ### Encoding and decoding of command words (R53, R60) -/

theorem encode_write (pa ra : Addr5) (d : Half) :
    encode (.write pa ra d) = .cmd32 (cmdWord 0b01#2 opWrite pa ra (0b10#2 ++ d)) :=
  congrArg InstrWord.cmd32 BitVec.append_assoc

theorem encode_read (pa ra : Addr5) (x : BitVec 18) :
    encode (.read pa ra x) = .cmd32 (cmdWord 0b01#2 opRead pa ra x) := rfl

/-- The fields that make a word a WRITE (R53, R60). -/
def WriteFields (c : Word) : Prop := cmdSt c = 0b01#2 ∧ cmdOp c = opWrite ∧ cmdTa c = 0b10#2

/-- The fields that make a word a READ (R53). -/
def ReadFields (c : Word) : Prop := cmdSt c = 0b01#2 ∧ cmdOp c = opRead

section
variable {c : Word}

theorem decodeCmd_write (h : WriteFields c) : decodeCmd c = .ok (.write (cmdPa c) (cmdRa c) (cmdData c)) := by
  obtain ⟨hst, hop, hta⟩ := h
  simp [decodeCmd, hst, hop, hta]

theorem decodeCmd_read (h : ReadFields c) : decodeCmd c = .ok (.read (cmdPa c) (cmdRa c) (cmdIgnored c)) := by
  obtain ⟨hst, hop⟩ := h
  simp [decodeCmd, hst, hop, opRead, opWrite]

theorem decodeCmd_other (hw : ¬ WriteFields c) (hr : ¬ ReadFields c) : ∃ e, decodeCmd c = .error e := by
  unfold decodeCmd
  split
  · exact ⟨_, rfl⟩
  next hst =>
  split
  next hop => exact ⟨_, if_neg fun hta => hw ⟨not_not.mp hst, hop, hta⟩⟩
  · exact ⟨_, if_neg fun hop => hr ⟨not_not.mp hst, hop⟩⟩

theorem WriteFields.eq_cmdWord (h : WriteFields c) :
    c = cmdWord 0b01#2 opWrite (cmdPa c) (cmdRa c) (0b10#2 ++ cmdData c) := by
  obtain ⟨hst, hop, hta⟩ := h
  rw [← hst, ← hop, ← hta, cmdTa_append_cmdData, cmdWord_fields]

theorem ReadFields.eq_cmdWord (h : ReadFields c) :
    c = cmdWord 0b01#2 opRead (cmdPa c) (cmdRa c) (cmdIgnored c) := by
  obtain ⟨hst, hop⟩ := h
  rw [← hst, ← hop, cmdWord_fields]

/-- A word that decodes is the encoding of its instruction. -/
theorem encode_of_decodeCmd {i : Instr} (h : decodeCmd c = .ok i) : encode i = .cmd32 c := by
  by_cases hw : WriteFields c
  · cases (decodeCmd_write hw).symm.trans h
    rw [encode_write, ← hw.eq_cmdWord]
  by_cases hr : ReadFields c
  · cases (decodeCmd_read hr).symm.trans h
    rw [encode_read, ← hr.eq_cmdWord]
  · obtain ⟨e, he⟩ := decodeCmd_other hw hr
    cases he.symm.trans h
end

theorem decodeCmd_cmdWord_write (pa ra : Addr5) (d : Half) :
    decodeCmd (cmdWord 0b01#2 opWrite pa ra (0b10#2 ++ d)) = .ok (.write pa ra d) := by
  rw [decodeCmd_write ⟨cmdSt_cmdWord .., cmdOp_cmdWord .., cmdTa_cmdWord ..⟩, cmdPa_cmdWord, cmdRa_cmdWord,
    cmdData_cmdWord]

theorem decodeCmd_cmdWord_read (pa ra : Addr5) (x : BitVec 18) :
    decodeCmd (cmdWord 0b01#2 opRead pa ra x) = .ok (.read pa ra x) := by
  rw [decodeCmd_read ⟨cmdSt_cmdWord .., cmdOp_cmdWord ..⟩, cmdPa_cmdWord, cmdRa_cmdWord, cmdIgnored_cmdWord]

/-! ### Micro-op codes (R62, R63) -/

/-- A code is its kind and its line bit. -/
theorem uopCode_of_kind {u : BitVec 4} {kind : BitVec 3} (h : u.extractLsb' 1 3 = kind) :
    uopCode kind (lineOfBit (u.getLsbD 0)) = u := by
  subst h
  revert u
  decide

/-- A code that decodes is the encoding of its micro-op. -/
theorem encode_of_decodeUop {u : BitVec 4} {i : Instr} (h : decodeUop u = .ok i) : encode i = .uop4 u := by
  unfold decodeUop at h
  dsimp only at h
  (repeat' split at h) <;> cases h
  all_goals exact congrArg InstrWord.uop4 (uopCode_of_kind (by assumption))

/-! ### The round trips -/

/-- Settles O1: a command's word has the fields that were put in, and a micro-op's code its kind and line. -/
theorem decodeOfEncodeIsTheInstruction : Obligations.DecodeOfEncodeIsTheInstruction := by
  unfold Obligations.DecodeOfEncodeIsTheInstruction
  intro i _
  cases i with
  | write pa ra d => rw [encode_write]; exact decodeCmd_cmdWord_write pa ra d
  | read pa ra x => exact decodeCmd_cmdWord_read pa ra x
  | driveLow l => exact decodeUop_drvL l
  | driveHigh l => exact decodeUop_drvH l
  | setInput l => exact decodeUop_setIn l
  | setOutput l => exact decodeUop_setOut l
  | sample l => exact decodeUop_smpL l

/-- Settles O2: a word is made of its fields, which the decoder keeps or has checked. -/
theorem encodeOfDecodeIsTheWord : Obligations.EncodeOfDecodeIsTheWord := by
  unfold Obligations.EncodeOfDecodeIsTheWord
  intro w i h
  cases w with
  | cmd32 c => exact encode_of_decodeCmd h
  | uop4 u => exact encode_of_decodeUop h

/-- Settles O4: the decoder evaluated on each word. -/
theorem wordsOfTheSpecDecode : Obligations.WordsOfTheSpecDecode := by
  unfold Obligations.WordsOfTheSpecDecode
  decide

/-! ### Match and mask (R53) -/

/-- The READ row of the opcode table. -/
theorem readMask_iff (c : Word) : c &&& 0xF0000000#32 = 0x60000000#32 ↔ ReadFields c := by
  have hmask : 0xF0000000#32 = cmdWord (BitVec.allOnes 2) (BitVec.allOnes 2) 0#5 0#5 0#18 := rfl
  have hmatch : 0x60000000#32 = cmdWord 0b01#2 opRead 0#5 0#5 0#18 := rfl
  rw [hmask, hmatch, and_cmdWord, cmdWord_inj]
  simp only [BitVec.and_allOnes, BitVec.and_zero, and_true, ReadFields]

/-- The WRITE row of the opcode table. -/
theorem writeMask_iff (c : Word) : c &&& 0xF0030000#32 = 0x50020000#32 ↔ WriteFields c := by
  have hmask : 0xF0030000#32 =
      cmdWord (BitVec.allOnes 2) (BitVec.allOnes 2) 0#5 0#5 (BitVec.allOnes 2 ++ 0#16) := rfl
  have hmatch : 0x50020000#32 = cmdWord 0b01#2 opWrite 0#5 0#5 (0b10#2 ++ 0#16) := rfl
  have hta : cmdIgnored c &&& (BitVec.allOnes 2 ++ 0#16) = cmdTa c ++ 0#16 := by
    rw [← cmdTa_append_cmdData, BitVec.and_append, BitVec.and_allOnes, BitVec.and_zero]
  rw [hmask, hmatch, and_cmdWord, hta, cmdWord_inj]
  simp only [BitVec.and_allOnes, BitVec.and_zero, true_and, WriteFields]
  rw [BitVec.append_left_inj]

/-- Settles O3: match and mask say what the fields are, and the fields decide what is decoded. -/
theorem commandWordsAreTheTwoRows : Obligations.CommandWordsAreTheTwoRows := by
  unfold Obligations.CommandWordsAreTheTwoRows
  intro c
  rw [ne_eq, ne_eq, writeMask_iff, readMask_iff]
  exact ⟨decodeCmd_write, decodeCmd_read, decodeCmd_other⟩

/-! ### The host encoder (R54) -/

section
variable {pa ra data : Nat}

theorem hostReadWord_eq (hpa : pa < 32) (hra : ra < 32) :
    hostReadWord pa ra = some (cmdWord 0b01#2 opRead (BitVec.ofNat 5 pa) (BitVec.ofNat 5 ra) 0#18) := by
  have hmatch : 0x60000000#32 = (0b01#2).setWidth 32 <<< 30 ||| opRead.setWidth 32 <<< 28 := rfl
  rw [hostReadWord, if_pos ⟨hpa, hra⟩, cmdWord_eq_shifts, hmatch,
    BitVec.setWidth_ofNat_of_le_of_lt (x := pa) (by decide) hpa,
    BitVec.setWidth_ofNat_of_le_of_lt (x := ra) (by decide) hra,
    BitVec.setWidth_zero, BitVec.or_zero]

theorem hostWriteWord_eq (hpa : pa < 32) (hra : ra < 32) (hdata : data < 65536) :
    hostWriteWord pa ra data = some (cmdWord 0b01#2 opWrite (BitVec.ofNat 5 pa) (BitVec.ofNat 5 ra)
      (0b10#2 ++ BitVec.ofNat 16 data)) := by
  have hmatch : 0x50020000#32 =
      (0b01#2).setWidth 32 <<< 30 ||| opWrite.setWidth 32 <<< 28 ||| (0b10#2).setWidth 32 <<< 16 := rfl
  have hreorder : ∀ m t p r d : Word, m ||| t ||| p ||| r ||| d = m ||| p ||| r ||| (t ||| d) := by
    intros; ac_rfl
  rw [hostWriteWord, if_pos ⟨hpa, hra, hdata⟩, cmdWord_eq_shifts, hmatch,
    BitVec.setWidth_append_eq_shiftLeft_setWidth_or,
    BitVec.setWidth_ofNat_of_le_of_lt (x := pa) (by decide) hpa,
    BitVec.setWidth_ofNat_of_le_of_lt (x := ra) (by decide) hra,
    BitVec.setWidth_ofNat_of_le_of_lt (x := data) (by decide) hdata, hreorder]
end

/-- Settles O5: the word the host builds by shifts is the one made of the operands as fields. -/
theorem hostEncoderRefusesAndNeverTruncates : Obligations.HostEncoderRefusesAndNeverTruncates := by
  unfold Obligations.HostEncoderRefusesAndNeverTruncates
  refine ⟨fun pa ra data hpa hra hdata => ?_, fun pa ra hpa hra => ?_, fun pa ra data h => ?_, fun pa ra h => ?_⟩
  · exact ⟨_, hostWriteWord_eq hpa hra hdata, decodeCmd_cmdWord_write _ _ _⟩
  · exact ⟨_, hostReadWord_eq hpa hra, decodeCmd_cmdWord_read _ _ _⟩
  · exact if_neg (by omega)
  · exact if_neg (by omega)

/-! ### The header (R57) -/

theorem header_eq_shifts (c : Cmd) : header c =
    (0b01#2).setWidth 14 <<< 12 ||| c.op.setWidth 14 <<< 10 ||| c.pa.setWidth 14 <<< 5 ||| c.ra.setWidth 14 :=
  calc header c
    _ = (0b01#2 ++ c.op ++ c.pa ++ c.ra).setWidth 14 := (BitVec.setWidth_eq _).symm
    _ = _ := BitVec.setWidth_append_append_append_eq_shiftLeft_setWidth_or

theorem frameBits_header (c : Cmd) {k : Nat} (h32 : 32 ≤ k) (h45 : k ≤ 45) :
    writeBit c k = some ((header c).getLsbD (45 - k)) ∧ readBit c k = some ((header c).getLsbD (45 - k)) := by
  have hpre : ¬ k < 32 := by omega
  have hhdr : k < 46 := by omega
  simp only [writeBit, readBit, if_neg hpre, if_pos hhdr, and_self]

/-- Settles O6: the header is the first four fields of the command word, each shifted to its place. -/
theorem headerIsTheCommandsUpperBits : Obligations.HeaderIsTheCommandsUpperBits := by
  unfold Obligations.HeaderIsTheCommandsUpperBits
  refine ⟨fun pa ra x => ⟨?_, ?_⟩, fun pa ra d c h => ?_, fun pa ra x c h => ?_,
    fun c _ => frameBits_header c, by decide⟩
  · have hmatch : 0x1400#14 = (0b01#2).setWidth 14 <<< 12 ||| opWrite.setWidth 14 <<< 10 := rfl
    rw [hmatch, header_eq_shifts]
  · have hmatch : 0x1800#14 = (0b01#2).setWidth 14 <<< 12 ||| opRead.setWidth 14 <<< 10 := rfl
    rw [hmatch, header_eq_shifts]
  · cases (encode_write pa ra d).symm.trans h
    exact (cmdWord_header ..).symm
  · cases (encode_read pa ra x).symm.trans h
    exact (cmdWord_header ..).symm

end Sys2Proof.Machine
end

section
/-! PROOFS. Which codes the traces hold, the ignored bits of a READ, and WAIT. -/

namespace Sys2Proof.Machine

/-! ### The codes of a trace (R63, R103) -/

/-- The codes above 0x8 are SAMPLE MDC and the reserved ones. -/
theorem code_le_of_decodeUop {u : BitVec 4} {i : Instr} (h : decodeUop u = .ok i) (hi : i ≠ .sample .mdc) :
    u.toNat ≤ 8 := by
  revert hi
  have he := encode_of_decodeUop h
  cases i with
  | write | read => cases he
  | sample l =>
    cases l with
    | mdio => cases he; decide
    | mdc => exact fun hi => absurd rfl hi
  | driveLow l | driveHigh l | setInput l | setOutput l => cases l <;> cases he <;> decide

theorem FrameUop.ne_sampleMdc {c : Cmd} {m : Mode} {n : Nat} {i : Instr} (h : FrameUop c m n i) :
    i ≠ .sample .mdc := by
  cases h with
  | bit k b => cases b <;> decide
  | _ => decide

theorem FrameUop.lt_traceLen {c : Cmd} {m : Mode} {n : Nat} {i : Instr} (h : FrameUop c m n i)
    (hm : m = .wr ∨ m = .rd) : n < traceLen m := by
  rcases hm with rfl | rfl <;> simp only [traceLen]
  · cases h with
    | bit k b hb => have hk := hostBit_wr_lt hb; omega
    | rise k hk | fall k hk => change k < 64 at hk; omega
    | turnaround hm | dataRise hm | dataSample hm | dataFall hm => cases hm
    | mdcLow | mdioHigh | takeMdc | takeMdio | releaseMdio | releaseMdc => decide
  · cases h with
    | bit k b hb => have hk := hostBit_rd_lt hb; omega
    | rise k hk | fall k hk => change k < 47 at hk; omega
    | dataRise _ j hj | dataSample _ j hj | dataFall _ j hj => omega
    | mdcLow | mdioHigh | takeMdc | takeMdio | turnaround | releaseMdio | releaseMdc => decide

theorem releaseUop_cases {n : Nat} {u : BitVec 4} (h : releaseUop n = some u) :
    n = 0 ∧ u = 0x4#4 ∨ n = 1 ∧ u = 0x5#4 := by
  unfold releaseUop at h
  split at h
  · cases h; exact .inl ⟨rfl, rfl⟩
  · cases h; exact .inr ⟨rfl, rfl⟩
  · cases h

/-- What stands in the trace of a command is a micro-op of its frame. -/
theorem frameUop_of_trace {m : Mode} {c : Option Cmd} {n : Nat} {u : BitVec 4} (hm : m = .wr ∨ m = .rd)
    (h : trace m c n = some u) : ∃ c' i, decodeUop u = .ok i ∧ FrameUop c' m n i := by
  rcases hm with rfl | rfl <;> obtain ⟨c', -, h⟩ := Option.bind_eq_some_iff.mp h
  · exact ⟨c', frameUop_of_writeTrace h⟩
  · exact ⟨c', frameUop_of_readTrace h⟩

theorem trace_frame_bounds {m : Mode} {c : Option Cmd} {n : Nat} {u : BitVec 4} (hm : m = .wr ∨ m = .rd)
    (h : trace m c n = some u) : u.toNat ≤ 8 ∧ n < traceLen m := by
  obtain ⟨c', i, hi, hf⟩ := frameUop_of_trace hm h
  exact ⟨code_le_of_decodeUop hi hf.ne_sampleMdc, hf.lt_traceLen hm⟩

/-- Settles O9: a frame's micro-ops are the constructors of `FrameUop`; the RST trace is `releaseUop`. -/
theorem tracesHoldOnlyAdmittedMicroOps : Obligations.TracesHoldOnlyAdmittedMicroOps := by
  unfold Obligations.TracesHoldOnlyAdmittedMicroOps
  refine ⟨fun m c n u h => ?_, fun c => ⟨rfl, rfl⟩⟩
  cases m with
  | idle => cases h
  | rst =>
    obtain ⟨rfl, rfl⟩ | ⟨rfl, rfl⟩ := releaseUop_cases h
    · exact ⟨by decide, by decide, by decide, fun _ => .inl ⟨rfl, rfl⟩⟩
    · exact ⟨by decide, by decide, by decide, fun _ => .inr ⟨rfl, rfl⟩⟩
  | wr | rd =>
    obtain ⟨hcode, hn⟩ := trace_frame_bounds (by decide) h
    exact ⟨hcode, by decide, hn, fun hm => by cases hm⟩

/-! ### The ignored bits of a READ (R60) -/

/-- A READ word runs the same whatever its ignored bits are (R60). -/
theorem issueTurn_read (pa ra : Addr5) (x : BitVec 18) (s : State) :
    issueTurn (cmdWord 0b01#2 opRead pa ra x) s = execRead pa ra 0#18 s := by
  rw [issueTurn, decodeCmd_cmdWord_read]
  rfl

theorem step_issue (s : State) (c : Word) (rest : List Turn) :
    step { s with turns := .issue c :: rest } =
      if s.params.wf then issueTurn c { s with turns := rest } else .refused .badParameters := rfl

/-- Settles O22: a word with the same upper bits is a READ of the same PA and RA, and `execRead` ignores the rest. -/
theorem ignoredBitsOfAReadHaveNoEffect : Obligations.IgnoredBitsOfAReadHaveNoEffect := by
  unfold Obligations.IgnoredBitsOfAReadHaveNoEffect
  intro s c c' rest hread hsame
  obtain ⟨hst, hop⟩ := (readMask_iff c).mp hread
  have hc := eq_cmdWord_of_same_header (c := c) rfl
  have hc' := eq_cmdWord_of_same_header hsame
  rw [hst, hop] at hc hc'
  rw [step_issue, step_issue, hc, hc', issueTurn_read, issueTurn_read]

/-! ### The turns that wait do not matter to a sequencer step (R90) -/

/-- The state with other turns waiting. -/
def State.withTurns (l : List Turn) (s : State) : State := { s with turns := l }

section
variable (l : List Turn) (s t : State)

@[simp] theorem withTurns_devices : (s.withTurns l).devices = s.devices := rfl
@[simp] theorem withTurns_mode : (s.withTurns l).mode = s.mode := rfl
@[simp] theorem withTurns_apend : (s.withTurns l).apend = s.apend := rfl
@[simp] theorem withTurns_drv (l' : Line) : (s.withTurns l).drv l' = s.drv l' := rfl
@[simp] theorem withTurns_wire (l' : Line) : (s.withTurns l).wire l' = s.wire l' := rfl

theorem shiftOut_withTurns (l' : Line) : shiftOut l' (s.withTurns l) = (shiftOut l' s).withTurns l := by
  unfold shiftOut
  rw [apply_ite (State.withTurns l)]
  rfl

theorem shiftIn_withTurns (b : Bool) : shiftIn b (s.withTurns l) = (shiftIn b s).withTurns l := by
  unfold shiftIn
  rw [apply_ite (State.withTurns l)]
  rfl

theorem uopResult_withTurns (i : Instr) : uopResult i (s.withTurns l) = (uopResult i s).withTurns l := by
  cases i with
  | write | read | setInput | setOutput => rfl
  | driveLow l' => exact shiftOut_withTurns l (emit (lineEvents l' (s.drv l') _) (written .outClr l' s)) l'
  | driveHigh l' => exact shiftOut_withTurns l (emit (lineEvents l' (s.drv l') _) (written .outSet l' s)) l'
  | sample l' => exact shiftIn_withTurns l (emit _ { s with draws := s.draws + 1, port := _ }) _

theorem devicesAfter_withTurns :
    devicesAfter (s.withTurns l) (t.withTurns l) = (devicesAfter s t).withTurns l := by
  unfold devicesAfter
  rw [withTurns_devices, withTurns_drv, withTurns_drv, withTurns_wire]
  (repeat' split) <;> rfl

theorem complete_withTurns : complete (s.withTurns l) = (complete s).withTurns l := by
  unfold complete
  rw [withTurns_mode, withTurns_apend]
  (repeat' split) <;> rfl

theorem settled_withTurns : settled (s.withTurns l) (t.withTurns l) = (settled s t).withTurns l := by
  unfold settled
  rw [devicesAfter_withTurns]
  rfl

theorem finishUop_withTurns : finishUop (s.withTurns l) (t.withTurns l) = (finishUop s t).withTurns l := by
  rw [finishUop_eq, finishUop_eq, settled_withTurns, apply_ite (State.withTurns l), ← complete_withTurns]
  rfl
end

@[simp] theorem finishUop_turns (s t : State) : (finishUop s t).turns = t.turns := by
  rw [finishUop_eq]
  split <;> simp

theorem sequencerTurn_turns {s t : State} (hw : s.params.wf = true) (h : sequencerTurn s = .next t) :
    t.turns = s.turns := by
  obtain ⟨-, rfl⟩ | ⟨u, i, -, -, -, rfl⟩ := sequencerTurn_cases hw h
  · rfl
  · simp

theorem sequencerTurn_mapFailed {s : State} (hm : s.mode ≠ .idle) (hmap : s.fault.mapFailed = true) :
    sequencerTurn s = .fault .mapFailedStuck := by
  simp [sequencerTurn, State.busy, hm, hmap]

/-- A sequencer step is the same whatever turns wait. -/
theorem sequencerTurn_withTurns {s t : State} (hw : s.params.wf = true) (l : List Turn)
    (h : sequencerTurn s = .next t) : sequencerTurn (s.withTurns l) = .next (t.withTurns l) := by
  obtain ⟨hm, rfl⟩ | ⟨u, i, hm, hu, hi, rfl⟩ := sequencerTurn_cases hw h
  · exact sequencerTurn_idle hm
  · have hmap : s.fault.mapFailed = false := by
      by_contra hmap
      rw [sequencerTurn_mapFailed hm (by simpa using hmap)] at h
      cases h
    rw [← finishUop_withTurns, ← uopResult_withTurns]
    exact sequencerTurn_uop (s := s.withTurns l) hw ((busy_iff s).mpr hm) hmap hu hi

/-! ### WAIT (R64) -/

theorem step_wait_idle {s : State} {rest : List Turn} (hw : s.params.wf = true) (ht : s.turns = .wait :: rest)
    (hm : s.mode = .idle) : step s = .next { s with turns := rest } := by
  have hb : State.busy { s with turns := rest } = false := (not_busy_iff _).mpr hm
  simp [step, nextTurn, takeTurn, hw, ht, hb]

theorem step_wait_busy {s : State} {rest : List Turn} (hw : s.params.wf = true) (ht : s.turns = .wait :: rest)
    (hm : s.mode ≠ .idle) : step s = sequencerTurn s := by
  have hb : State.busy { s with turns := rest } = true := (busy_iff _).mpr hm
  have hs : { s with turns := .wait :: rest } = s := by rw [← ht]
  simp [step, nextTurn, takeTurn, hw, ht, hb, hs]

/-- Settles O55: with WAIT first a busy step is the sequencer's, which neither reads nor changes the turns. -/
theorem waitLetsTheSequencerRun : Obligations.WaitLetsTheSequencerRun := by
  unfold Obligations.WaitLetsTheSequencerRun
  intro s rest hw ht
  refine ⟨step_wait_idle hw ht, fun t hm h => ?_, fun t hm h => ?_⟩
  · rw [step_wait_busy hw ht hm] at h
    exact sequencerTurn_turns hw h
  · have hnext : SequencerNext (s.withTurns [.sequencer]) (s.withTurns []) := ⟨hw, .inr ⟨[], rfl, rfl⟩⟩
    rw [step_wait_busy hw ht hm]
    exact sequencerTurn_withTurns (s := s.withTurns []) hw s.turns ((step_of_sequencerNext hnext).symm.trans h)

end Sys2Proof.Machine
end

section
/-! PROOFS. The Bus Driver micro-ops (R69, R70, R73 to R75): what each does to its line's drive and latch, the event
it records (R71), and the level of each line (R72). -/

namespace Sys2Proof.Machine

/-! ### The level of a line (R72) -/

/-- Settles O19: each case is one branch of `State.wire`. -/
theorem wireResolution : Obligations.WireResolution := by
  unfold Obligations.WireResolution
  intro s
  refine ⟨fun hdir => ?_, fun hdir => ?_, fun hdir hdev => ?_, fun b hdir hdev => ?_, fun hdir hdev => ?_,
    fun hdir hdev => ?_⟩
  · simp [State.wire, hdir]
  · simp [State.wire, hdir]
  · simp [State.wire, hdir, hdev]
  · simp [State.wire, hdir, hdev]
  · simp [State.wire, hdir, hdev]
  · simp [State.wire, hdir, hdev]

/-! ### The drive of a line and its events (R71) -/

theorem drv_input {s : State} {l : Line} (h : s.dirBit l = false) : s.drv l = none := by simp [State.drv, h]
theorem drv_output {s : State} {l : Line} (h : s.dirBit l = true) : s.drv l = some (s.outBit l) := by
  simp [State.drv, h]

/-- The drive of a line after a micro-op comes from its direction and its latch (R71). -/
theorem uopResult_drv {s : State} (hw : s.params.wf = true) (i : Instr) (l : Line) :
    (uopResult i s).drv l =
      if Instr.dirAfter i l (s.dirBit l) then some (Instr.outAfter i l (s.outBit l)) else none := by
  rw [State.drv, uopResult_dirBit hw, uopResult_outBit hw]

/-- A drive that stays the same is no event. -/
theorem lineEvents_self (l : Line) (d : Drive) : lineEvents l d d = [] := by
  cases d with
  | none => rfl
  | some b => exact if_pos rfl

theorem lineEvents_mdio_change (b : Bool) : lineEvents .mdio (some (!b)) (some b) = [.drive b] := by
  cases b <;> rfl

@[simp] theorem emit_drv (es : List LineEvent) (s : State) (l : Line) : (emit es s).drv l = s.drv l := rfl
@[simp] theorem shiftOut_drv (l : Line) (s : State) (l' : Line) : (shiftOut l s).drv l' = s.drv l' := by
  simp [State.drv]

section
variable {s : State} {l : Line} {i : Instr}
  (hi : i = .driveLow l ∨ i = .driveHigh l ∨ i = .setInput l ∨ i = .setOutput l)
include hi

/-- A line operation records the event between the drives of its line before and after (R68, R71). -/
theorem lineOp_hist_events :
    (uopResult i s).hist = s.hist ++ lineEvents l (s.drv l) ((uopResult i s).drv l) := by
  rcases hi with rfl | rfl | rfl | rfl <;> simp [uopResult]

theorem lineOp_hist_quiet (hdrv : (uopResult i s).drv l = s.drv l) : (uopResult i s).hist = s.hist := by
  rw [lineOp_hist_events hi, hdrv, lineEvents_self, List.append_nil]

theorem lineOp_drv_other (hw : s.params.wf = true) {l' : Line} (hne : l' ≠ l) :
    (uopResult i s).drv l' = s.drv l' := by
  rw [uopResult_drv hw]
  rcases hi with rfl | rfl | rfl | rfl <;> simp [Instr.dirAfter, Instr.outAfter, hne.symm, State.drv]
end

/-- Settles O18: a line operation records `lineEvents` of its line's drives, and leaves the other line's bits. -/
theorem eachLineOperationEmitsItsEvent : Obligations.EachLineOperationEmitsItsEvent := by
  unfold Obligations.EachLineOperationEmitsItsEvent
  refine ⟨fun s l => rfl, fun s t l i hw hi h => ?_⟩
  rw [exec_uop hw (lineOp_isUop hi)] at h
  cases h
  refine ⟨_, lineOp_hist_events hi, fun l' hne => lineOp_drv_other hi hw hne, fun hsame => ?_,
    fun b hbefore hafter => ?_, fun a hbefore hafter => ?_, fun hl hbefore hafter => ?_,
    fun hl hbefore hafter => ?_, fun b hl hbefore hafter => ?_⟩
  · rw [hsame, lineEvents_self]
  · rw [hbefore, hafter]; rfl
  · rw [hbefore, hafter]; rfl
  · rw [hbefore, hafter, hl]; rfl
  · rw [hbefore, hafter, hl]; rfl
  · rw [hbefore, hafter, hl, lineEvents_mdio_change]

/-! ### Setting or clearing a bit that is so already (R17) -/

theorem or_bitmask_eq_self {p : Params} {l : Line} {w : Word} (h : w.getLsbD (p.bitOf l).val = true) :
    w ||| bitmask p l = w := by
  refine BitVec.eq_of_getLsbD_eq fun k _ => ?_
  rw [BitVec.getLsbD_or, bitmask_getLsbD]
  by_cases hk : k = (p.bitOf l).val
  · rw [hk, h, Bool.true_or]
  · rw [decide_eq_false hk, Bool.or_false]

theorem and_not_bitmask_eq_self {p : Params} {l : Line} {w : Word} (h : w.getLsbD (p.bitOf l).val = false) :
    w &&& ~~~bitmask p l = w := by
  refine BitVec.eq_of_getLsbD_eq fun k _ => ?_
  rw [getLsbD_and_not, bitmask_getLsbD]
  by_cases hk : k = (p.bitOf l).val
  · rw [hk, h, Bool.false_and]
  · rw [decide_eq_false hk, Bool.not_false, Bool.and_true]

/-! ### DRIVE_HIGH and DRIVE_LOW (R69, R70) -/

section
variable {s : State} {l : Line}

theorem driveHigh_out : (uopResult (.driveHigh l) s).out = s.out ||| bitmask s.params l := by
  simp [uopResult, regWrite_out]

theorem driveLow_out : (uopResult (.driveLow l) s).out = s.out &&& ~~~bitmask s.params l := by
  simp [uopResult, regWrite_out]

theorem driveHigh_drv (hw : s.params.wf = true) :
    (uopResult (.driveHigh l) s).drv l = if s.dirBit l then some true else none := by
  simp [uopResult_drv hw, Instr.dirAfter, Instr.outAfter]

theorem driveLow_drv (hw : s.params.wf = true) :
    (uopResult (.driveLow l) s).drv l = if s.dirBit l then some false else none := by
  simp [uopResult_drv hw, Instr.dirAfter, Instr.outAfter]
end

/-- Settles O11: one write of OUT_SET; the event comes from the drive, which is 1 where the line is an output. -/
theorem driveHighSetsTheLatch : Obligations.DriveHighSetsTheLatch := by
  unfold Obligations.DriveHighSetsTheLatch
  refine ⟨decodeUop_drvH .mdio, decodeUop_drvH .mdc, fun s l hw => ?_⟩
  refine ⟨uopResult (.driveHigh l) s, exec_uop hw rfl, driveHigh_out, drive_dir (.inr rfl), ?_,
    shiftOut_port l _, uopResult_rdv _ s, uopResult_aborted _ s, uopResult_apend _ s, uopResult_fault _ s,
    uopResult_mode _ s, lineOp_hist_events (.inr (.inl rfl)), fun hdir => ?_, fun hout => ⟨?_, ?_⟩,
    fun hl hdir hout => ?_⟩
  · simp [uopResult_driveHigh_outBit hw]
  · exact lineOp_hist_quiet (.inr (.inl rfl)) (by simp [driveHigh_drv hw, drv_input hdir, hdir])
  · rw [driveHigh_out, or_bitmask_eq_self hout]
  · exact lineOp_hist_quiet (.inr (.inl rfl)) (by rw [driveHigh_drv hw, State.drv, hout])
  · rw [lineOp_hist_events (.inr (.inl rfl)), driveHigh_drv hw, drv_output hdir, hdir, hout, hl]; rfl

/-- Settles O12: one write of OUT_CLR; the event comes from the drive, which is 0 where the line is an output. -/
theorem driveLowClearsTheLatch : Obligations.DriveLowClearsTheLatch := by
  unfold Obligations.DriveLowClearsTheLatch
  refine ⟨decodeUop_drvL .mdio, decodeUop_drvL .mdc, fun s l hw => ?_⟩
  refine ⟨uopResult (.driveLow l) s, exec_uop hw rfl, driveLow_out, drive_dir (.inl rfl), ?_,
    shiftOut_port l _, uopResult_rdv _ s, uopResult_aborted _ s, uopResult_apend _ s, uopResult_fault _ s,
    uopResult_mode _ s, lineOp_hist_events (.inl rfl), fun hdir => ?_, fun hout => ⟨?_, ?_⟩, fun hl hdir hout => ?_,
    fun hl hdir hout => ?_⟩
  · simp [uopResult_driveLow_outBit hw]
  · exact lineOp_hist_quiet (.inl rfl) (by simp [driveLow_drv hw, drv_input hdir, hdir])
  · rw [driveLow_out, and_not_bitmask_eq_self hout]
  · exact lineOp_hist_quiet (.inl rfl) (by rw [driveLow_drv hw, State.drv, hout])
  · rw [lineOp_hist_events (.inl rfl), driveLow_drv hw, drv_output hdir, hdir, hout, hl]; rfl
  · rw [lineOp_hist_events (.inl rfl), driveLow_drv hw, drv_output hdir, hdir, hout, hl]; rfl

/-! ### SET_OUTPUT and SET_INPUT (R73, R74) -/

section
variable {s : State} {l : Line}

theorem setOutput_dir : (uopResult (.setOutput l) s).dir = s.dir ||| bitmask s.params l := by
  simp [uopResult, regWrite_dir]

theorem setInput_dir : (uopResult (.setInput l) s).dir = s.dir &&& ~~~bitmask s.params l := by
  simp [uopResult, regWrite_dir]

theorem setOutput_drv (hw : s.params.wf = true) : (uopResult (.setOutput l) s).drv l = some (s.outBit l) := by
  simp [uopResult_drv hw, Instr.dirAfter, Instr.outAfter]

theorem setInput_drv (hw : s.params.wf = true) : (uopResult (.setInput l) s).drv l = none := by
  simp [uopResult_drv hw, Instr.dirAfter]
end

/-- Settles O13: one write of DIR_SET, after which the line's drive is its latch. -/
theorem setOutputTakesTheLine : Obligations.SetOutputTakesTheLine := by
  unfold Obligations.SetOutputTakesTheLine
  refine ⟨decodeUop_setOut .mdio, decodeUop_setOut .mdc, fun s l hw => ?_⟩
  obtain ⟨hout, -⟩ := direction_out_sr (s := s) (l := l) (.inr rfl)
  refine ⟨uopResult (.setOutput l) s, exec_uop hw rfl, setOutput_dir, hout, setOutput_drv hw, rfl,
    uopResult_rdv _ s, uopResult_aborted _ s, uopResult_apend _ s, uopResult_fault _ s, uopResult_mode _ s,
    fun hdir => ?_, fun hdir => ⟨?_, ?_⟩⟩
  · rw [lineOp_hist_events (.inr (.inr (.inr rfl))), setOutput_drv hw, drv_input hdir]; rfl
  · rw [setOutput_dir, or_bitmask_eq_self hdir]
  · exact lineOp_hist_quiet (.inr (.inr (.inr rfl))) (by rw [setOutput_drv hw, drv_output hdir])

/-- Settles O14: one write of DIR_CLR, after which the host drives nothing on the line. -/
theorem setInputReleasesTheLine : Obligations.SetInputReleasesTheLine := by
  unfold Obligations.SetInputReleasesTheLine
  refine ⟨decodeUop_setIn .mdio, decodeUop_setIn .mdc, fun s l hw => ?_⟩
  obtain ⟨hout, -⟩ := direction_out_sr (s := s) (l := l) (.inl rfl)
  refine ⟨uopResult (.setInput l) s, exec_uop hw rfl, setInput_dir, hout, setInput_drv hw, rfl,
    uopResult_rdv _ s, uopResult_aborted _ s, uopResult_apend _ s, uopResult_fault _ s, uopResult_mode _ s,
    fun hdir => ?_, fun hdir => ⟨?_, ?_⟩⟩
  · rw [lineOp_hist_events (.inr (.inr (.inl rfl))), setInput_drv hw, drv_output hdir]; rfl
  · rw [setInput_dir, and_not_bitmask_eq_self hdir]
  · exact lineOp_hist_quiet (.inr (.inr (.inl rfl))) (by rw [setInput_drv hw, drv_input hdir])

/-! ### SAMPLE (R75) -/

/-- IN reports the level of a released line where that level is known (R16). -/
theorem inWord_released {s : State} {l : Line} {v : Bool} (hw : s.params.wf = true) (hdir : s.dirBit l = false)
    (hwire : s.wire l = some v) : s.inWord.getLsbD (s.params.bitOf l).val = v := by
  rw [inWord_getLsbD hw, State.padLevel, hdir, hwire]
  rfl

/-- Settles O15: SAMPLE records the line's bit of the word it reads from IN. -/
theorem sampleReadsTheWire : Obligations.SampleReadsTheWire := by
  unfold Obligations.SampleReadsTheWire
  refine ⟨decodeUop_smpL .mdio, decodeUop_smpL .mdc, fun s l hw => ?_⟩
  exact ⟨uopResult (.sample l) s, s.inWord.getLsbD (s.params.bitOf l).val, exec_uop hw rfl, shiftIn_port _ _,
    shiftIn_hist _ _, fun v hdir hwire => inWord_released hw hdir hwire⟩

end Sys2Proof.Machine
end

section
/-! PROOFS. The shift register in the data phase of a READ (R86): each SAMPLE puts its bit into SR, nothing else of
the frame does, so SR holds the samples taken so far. -/

namespace Sys2Proof.Machine

/-! ### A data-in sample -/

theorem msbFirst_concat (bs : List Bool) (b : Bool) : msbFirst (bs ++ [b]) = 2 * msbFirst bs + b.toNat := by
  simp [msbFirst]

/-- Shifting one more bit into 16 is taking it as the next less significant one (R39, R88). -/
theorem shiftLeft_msbFirst (bs : List Bool) (b : Bool) :
    shiftLeft (BitVec.ofNat 16 (msbFirst bs)) b = BitVec.ofNat 16 (msbFirst (bs ++ [b])) := by
  have hbit : (if b then 1#16 else 0#16).toNat = b.toNat := by cases b <;> rfl
  have hlow : (msbFirst bs % 2 ^ 16) <<< 1 % 2 ^ 16 = (msbFirst bs % 2 ^ 15) <<< 1 := by
    simp only [Nat.shiftLeft_eq]; omega
  apply BitVec.eq_of_toNat_eq
  rw [shiftLeft, BitVec.toNat_or, BitVec.toNat_shiftLeft, BitVec.toNat_ofNat, BitVec.toNat_ofNat, hbit, hlow,
    ← Nat.shiftLeft_add_eq_or_of_lt (Bool.toNat_lt b), Nat.shiftLeft_eq, msbFirst_concat]
  have := Bool.toNat_lt b
  omega

theorem atDataIn_iff {s : State} (hm : s.mode = .rd) : s.atDataIn = true ↔ ∃ j, j < 16 ∧ s.upc = 146 + 3 * j := by
  simp only [State.atDataIn, hm, true_and, decide_eq_true_iff]
  constructor
  · rintro ⟨h1, h2, h3⟩
    exact ⟨(s.upc - 146) / 3, by omega, by omega⟩
  · rintro ⟨j, hj, hupc⟩
    omega

/-- A data-in sample puts the bit it records into SR (R86). -/
theorem sample_dataIn {s : State} {v : Half} (l : Line) (hin : s.atDataIn = true) (hsr : s.sr = some v) :
    ∃ b, (uopResult (.sample l) s).hist = s.hist ++ [.sample b] ∧
      (uopResult (.sample l) s).sr = some (shiftLeft v b) := by
  have hin' : ∀ es d p, (emit es { s with draws := d, port := p }).atDataIn = true := fun _ _ _ => hin
  refine ⟨_, shiftIn_hist _ _, (shiftIn_sr _ _).trans ?_⟩
  rw [if_pos (hin' _ _ _)]
  exact congrArg (Option.map fun v => shiftLeft v _) hsr

/-- Settles O31: at a data-in position SAMPLE shifts the bit it records into SR. -/
theorem dataInFillsTheShifter : Obligations.DataInFillsTheShifter := by
  unfold Obligations.DataInFillsTheShifter
  intro s v j hw hm hupc hj hsr
  obtain ⟨b, hhist, hshift⟩ := sample_dataIn .mdio ((atDataIn_iff hm).mpr ⟨j, hj, hupc⟩) hsr
  exact ⟨_, b, exec_uop hw rfl, hhist, hshift⟩

/-! ### The samples of a READ -/

/-- SAMPLE stands at the sixteen data-in positions of a READ and nowhere else; every other micro-op is a line
operation (R99). -/
theorem FrameUop.sample_or_lineOp {c : Cmd} {n : Nat} {i : Instr} (h : FrameUop c .rd n i) :
    (∃ j, j < 16 ∧ n = 146 + 3 * j) ∧ i = .sample .mdio ∨
      (¬ ∃ j, j < 16 ∧ n = 146 + 3 * j) ∧
        ∃ l, i = .driveLow l ∨ i = .driveHigh l ∨ i = .setInput l ∨ i = .setOutput l := by
  cases h with
  | dataSample _ j hj => exact .inl ⟨⟨j, hj, rfl⟩, rfl⟩
  | bit k b => exact .inr ⟨by omega, .mdio, by cases b <;> simp [driveBit]⟩
  | rise k hk | fall k hk => change k < 47 at hk; exact .inr ⟨by omega, .mdc, by simp⟩
  | dataRise | dataFall => exact .inr ⟨by omega, .mdc, by simp⟩
  | mdcLow | takeMdc => exact .inr ⟨by omega, .mdc, by simp⟩
  | mdioHigh | takeMdio | turnaround => exact .inr ⟨by omega, .mdio, by simp⟩
  | releaseMdio => exact .inr ⟨by simp only [traceLen]; omega, .mdio, by simp⟩
  | releaseMdc => exact .inr ⟨by simp only [traceLen]; omega, .mdc, by simp⟩

/-- The count of samples moves on at the data-in positions. -/
theorem dataBitsDone_rd_sample {j : Nat} (hj : j < 16) :
    dataBitsDone .rd (146 + 3 * j + 1) = dataBitsDone .rd (146 + 3 * j) + 1 := by
  simp only [dataBitsDone]; omega

theorem dataBitsDone_rd_other {n : Nat} (hn : ¬ ∃ j, j < 16 ∧ n = 146 + 3 * j) :
    dataBitsDone .rd (n + 1) = dataBitsDone .rd n := by
  have hpos : n < 146 ∨ (n - 146) % 3 ≠ 0 ∨ 194 ≤ n := by
    by_contra hsample
    exact hn ⟨(n - 146) / 3, by omega, by omega⟩
  simp only [dataBitsDone]; omega

theorem sampledBits_lineOp {s : State} {l : Line} {i : Instr}
    (hi : i = .driveLow l ∨ i = .driveHigh l ∨ i = .setInput l ∨ i = .setOutput l) :
    sampledBits (uopResult i s).hist = sampledBits s.hist := by
  rw [lineOp_hist_events hi, sampledBits_append, sampledBits_lineEvents, List.append_nil]

/-- `ReadShifterOk` stays where mode, position, HIST and SR do and an Abort at most was noted. -/
theorem ReadShifterOk.of_same {s t : State} (h : ReadShifterOk s) (hmode : t.mode = s.mode)
    (hupc : t.upc = s.upc) (hapend : t.apend = false → s.apend = false) (hhist : t.hist = s.hist)
    (hsr : t.sr = s.sr) : ReadShifterOk t := by
  unfold ReadShifterOk
  rw [hmode, hupc, hhist, hsr]
  exact fun hm hrun => h hm (hrun.imp_right hapend)

/-- A micro-op of a READ keeps SR equal to the samples taken (R86). -/
theorem ReadShifterOk.after_uop {s : State} {c : Cmd} {i : Instr} (h : ReadShifterOk s) (hm : s.mode = .rd)
    (hf : FrameUop c .rd s.upc i) (hrun : s.upc < 193 ∨ s.apend = false) :
    ∃ taken older, sampledBits (uopResult i s).hist = older ++ taken ∧
      taken.length = dataBitsDone .rd (s.upc + 1) ∧
      (uopResult i s).sr = some (BitVec.ofNat 16 (msbFirst taken)) := by
  obtain ⟨taken, older, hhist, hlen, hsr⟩ := h hm hrun
  obtain ⟨hpos, rfl⟩ | ⟨hpos, l, hi⟩ := hf.sample_or_lineOp
  · obtain ⟨b, hrec, hshift⟩ := sample_dataIn .mdio ((atDataIn_iff hm).mpr hpos) hsr
    obtain ⟨j, hj, hupc⟩ := hpos
    refine ⟨taken ++ [b], older, ?_, ?_, ?_⟩
    · simp [hrec, sampledBits_append, hhist, sampledBits]
    · rw [hupc, dataBitsDone_rd_sample hj, ← hupc, ← hlen, List.length_append, List.length_singleton]
    · rw [hshift, shiftLeft_msbFirst]
  · refine ⟨taken, older, ?_, ?_, ?_⟩
    · rw [sampledBits_lineOp hi, hhist]
    · rw [dataBitsDone_rd_other hpos, hlen]
    · rw [lineOp_sr hi (by simp [State.atDataOut, hm]), hsr]

/-- A sequencer step keeps `ReadShifterOk`: the last one ends the READ, any other is a micro-op of its frame. -/
theorem ReadShifterOk.after_step {s : State} {u : BitVec 4} {i : Instr} (h : ReadShifterOk s)
    (hu : s.nextUop = some u) (hi : decodeUop u = .ok i) : ReadShifterOk (finishUop s (uopResult i s)) := by
  intro hm hrun
  by_cases hn : (uopResult i s).upc + 1 = traceLen (uopResult i s).mode
  · rw [finishUop_last_mode hn] at hm
    cases hm
  rw [finishUop_running_mode hn, uopResult_mode] at hm
  rw [finishUop_running_upc hn, finishUop_running_apend hn, uopResult_upc, uopResult_apend] at hrun
  obtain ⟨c, hc⟩ : ∃ c, s.cmd = some c := by
    rw [State.nextUop, hm] at hu
    obtain ⟨c, hc, -⟩ := Option.bind_eq_some_iff.mp hu
    exact ⟨c, hc⟩
  have hf := frameUop_of_nextUop hc (.inr hm) hu hi
  rw [hm] at hf
  rw [finishUop_running_upc hn, finishUop_hist, finishUop_sr, uopResult_upc]
  exact h.after_uop hm hf (hrun.imp_left fun hlt => by omega)

/-- An Abort that moves the sequencer puts a READ at its release, where nothing is claimed of SR (R109). -/
theorem ReadShifterOk.abort {s : State} (h : ReadShifterOk s) : ReadShifterOk (abortAction s) := by
  by_cases hm : s.mode = .wr ∨ s.mode = .rd
  · rw [abortAction_busy hm]
    split
    · intro hrd hrun
      simp only at hrd
      simp [hrd, traceLen] at hrun
    · exact h.of_same rfl rfl nofun rfl rfl
  · rwa [abortAction_quiet hm]

/-- Every move keeps `ReadShifterOk`. -/
theorem ReadShifterOk.move {s t : State} (h : ReadShifterOk s) (hmove : Move s t) : ReadShifterOk t := by
  cases hmove with
  | stay => exact h
  | uop u i busy mapped fetch dec => exact h.after_step fetch dec
  | acceptWrite pa ra d idle => exact nofun
  | acceptRead pa ra idle => exact fun _ _ => ⟨[], sampledBits s.hist, by simp, by simp [dataBitsDone], rfl⟩
  | illegal idle => exact h.of_same rfl rfl id rfl rfl
  | whileBusy busy => exact h.of_same rfl rfl id rfl rfl
  | abort => exact h.abort
  | reset => exact nofun
  | other r w own => exact h.of_same (by simp) (by simp) (by simp) (by simp) (by simp)
  | terminate => exact h.of_same rfl rfl id rfl rfl

/-- Settles O44: every move of a step keeps `ReadShifterOk`, so every step does. -/
theorem everyStepKeepsTheReadShifter : Obligations.EveryStepKeepsTheReadShifter := by
  unfold Obligations.EveryStepKeepsTheReadShifter
  intro s t hok h
  exact step_invariant (P := ReadShifterOk) (fun _ _ hs => hs.of_same rfl rfl id rfl rfl)
    (fun _ _ _ hs hm => hs.move hm) hok h

end Sys2Proof.Machine
end

section
/-! PROOFS. The sequencer alone, one line operation at a time, through SETUP (R78) and a cell BIT(b) (R79); and the
shift register in the data phase of a WRITE (R85). -/

namespace Sys2Proof.Machine

/-! ### Where the micro-ops of a frame stand -/

theorem trace_setup {m : Mode} (c : Cmd) {n : Nat} (hm : m = .wr ∨ m = .rd) (hn : n < 4) :
    trace m (some c) n = setupUop n := by
  rcases hm with rfl | rfl
  · exact if_pos hn
  · exact if_pos hn

/-- A slot in which the host drives a bit holds the three micro-ops of BIT(b) (R79, R95, R99). -/
theorem trace_cell {m : Mode} {c : Cmd} {k : Nat} {b : Bool} (hb : hostBit m c k = some b) {r : Nat} (hr : r < 3) :
    trace m (some c) (4 + 3 * k + r) = cellUop (some b) r := by
  have hslot : (4 + 3 * k + r - 4) / 3 = k := by omega
  have hplace : (4 + 3 * k + r - 4) % 3 = r := by omega
  cases m with
  | idle | rst => cases hb
  | wr =>
    have hk := hostBit_wr_lt hb
    change writeTrace c _ = _
    rw [writeTrace, if_neg (by omega), if_pos (by omega), hslot, hplace, ← hb]
    rfl
  | rd =>
    have hk := hostBit_rd_lt hb
    change readTrace c _ = _
    rw [readTrace, if_neg (by omega), if_pos (by omega), hslot, hplace, ← hb]
    rfl

theorem cell_lt_traceLen {m : Mode} {c : Cmd} {k : Nat} {b : Bool} (hb : hostBit m c k = some b) {r : Nat}
    (hr : r < 3) : 4 + 3 * k + r + 1 < traceLen m := by
  cases m with
  | idle | rst => cases hb
  | wr => have hk := hostBit_wr_lt hb; simp only [traceLen]; omega
  | rd => have hk := hostBit_rd_lt hb; simp only [traceLen]; omega

/-! ### One line operation of the sequencer alone -/

/-- The sequencer, alone, stands at position `n` of the trace of `c` in mode `m`. -/
structure FrameAt (c : Cmd) (m : Mode) (n : Nat) (s : State) : Prop where
  alone : SequencerAlone s
  mode : s.mode = m
  cmd : s.cmd = some c
  upc : s.upc = n

/-- What a line operation `i` on line `l` makes of the lines, HIST and the port between `s` and `t` (R68, R71). -/
structure LineEffect (i : Instr) (l : Line) (s t : State) : Prop where
  dirBit : ∀ l', t.dirBit l' = Instr.dirAfter i l' (s.dirBit l')
  outBit : ∀ l', t.outBit l' = Instr.outAfter i l' (s.outBit l')
  hist : t.hist = s.hist ++ lineEvents l (s.drv l) (t.drv l)
  port : t.port.length = s.port.length + 1

@[simp] theorem finishUop_port (s t : State) : (finishUop s t).port = t.port := by
  rw [finishUop_eq]; split <;> simp

theorem finishUop_drv (s t : State) (l : Line) : (finishUop s t).drv l = t.drv l := by
  rw [State.drv, finishUop_dirBit, finishUop_outBit, State.drv]

theorem SequencerAlone.after_uop {s : State} (h : SequencerAlone s) (i : Instr) :
    SequencerAlone (finishUop s (uopResult i s)) := by
  refine ⟨?_, ?_, ?_⟩
  · simpa using h.params
  · simpa [finishUop_fault] using h.mapped
  · simpa using h.turns

theorem SequencerAlone.step_uop {s : State} {u : BitVec 4} {i : Instr} (h : SequencerAlone s)
    (hu : s.nextUop = some u) (hi : decodeUop u = .ok i) : step s = .next (finishUop s (uopResult i s)) := by
  have hbusy : s.mode ≠ .idle := by
    intro hm
    rw [State.nextUop, hm] at hu
    cases hu
  rw [step_of_sequencerNext ⟨h.params, .inl ⟨h.turns, rfl⟩⟩]
  exact sequencerTurn_uop h.params ((busy_iff s).mpr hbusy) h.mapped hu hi

section
variable {c : Cmd} {m : Mode} {n : Nat} {s : State} {u : BitVec 4} {i : Instr} {l : Line}
  (hi : i = .driveLow l ∨ i = .driveHigh l ∨ i = .setInput l ∨ i = .setOutput l)
include hi

theorem lineOp_effect (hw : s.params.wf = true) : LineEffect i l s (finishUop s (uopResult i s)) := by
  obtain ⟨a, w, hport⟩ := lineOp_port (s := s) hi
  refine ⟨fun l' => ?_, fun l' => ?_, ?_, ?_⟩
  · rw [finishUop_dirBit, uopResult_dirBit hw]
  · rw [finishUop_outBit, uopResult_outBit hw]
  · rw [finishUop_hist, finishUop_drv, lineOp_hist_events hi]
  · rw [finishUop_port, hport, List.length_append, List.length_singleton]

/-- Before the last micro-op of its trace the sequencer performs a line operation and moves on. -/
theorem FrameAt.lineStep (h : FrameAt c m n s) (hu : trace m (some c) n = some u) (hdec : decodeUop u = .ok i)
    (hn : n + 1 < traceLen m) : ∃ t, step s = .next t ∧ FrameAt c m (n + 1) t ∧ LineEffect i l s t := by
  obtain ⟨halone, rfl, hc, rfl⟩ := h
  have hfetch : s.nextUop = some u := by rw [State.nextUop, hc, hu]
  have hrun : (uopResult i s).upc + 1 ≠ traceLen (uopResult i s).mode := by simp; omega
  refine ⟨_, halone.step_uop hfetch hdec, ⟨halone.after_uop i, ?_, ?_, ?_⟩, lineOp_effect hi halone.params⟩
  · simp [finishUop_running_mode hrun]
  · simp [hc]
  · simp [finishUop_running_upc hrun]
end

/-! ### SETUP (R78) -/

/-- Settles O28: the latches are set while both lines are inputs, so the two directions make the only events. -/
theorem setupTakesBothLines : Obligations.SetupTakesBothLines := by
  unfold Obligations.SetupTakesBothLines
  intro s halone hm hcmd hupc ⟨hmdio, hmdc⟩
  obtain ⟨c, hc⟩ := Option.ne_none_iff_exists'.mp hcmd
  have hlen : 4 < traceLen s.mode := by rcases hm with hm | hm <;> rw [hm] <;> decide
  have f0 : FrameAt c s.mode 0 s := ⟨halone, rfl, hc, hupc⟩
  obtain ⟨t1, step1, f1, e1⟩ :=
    f0.lineStep (.inl rfl) (trace_setup c hm (by decide)) (decodeUop_drvL .mdc) (by omega)
  obtain ⟨t2, step2, f2, e2⟩ :=
    f1.lineStep (.inr (.inl rfl)) (trace_setup c hm (by decide)) (decodeUop_drvH .mdio) (by omega)
  obtain ⟨t3, step3, f3, e3⟩ :=
    f2.lineStep (.inr (.inr (.inr rfl))) (trace_setup c hm (by decide)) (decodeUop_setOut .mdc) (by omega)
  obtain ⟨t4, step4, f4, e4⟩ :=
    f3.lineStep (.inr (.inr (.inr rfl))) (trace_setup c hm (by decide)) (decodeUop_setOut .mdio) (by omega)
  have hin : ∀ l, s.dirBit l = false := by rintro (_ | _) <;> assumption
  have hin1 : ∀ l, t1.dirBit l = false := fun l => (e1.dirBit l).trans (hin l)
  have hin2 : ∀ l, t2.dirBit l = false := fun l => (e2.dirBit l).trans (hin1 l)
  have hin3 : t3.dirBit .mdio = false := by rw [e3.dirBit, hin2]; rfl
  have hmdc3 : t3.drv .mdc = some false := by
    simp [State.drv, e3.dirBit, e3.outBit, e2.outBit, e1.outBit, Instr.dirAfter, Instr.outAfter]
  have hmdc4 : t4.drv .mdc = some false := by
    rw [← hmdc3, State.drv, State.drv, e4.dirBit, e4.outBit]
    simp [Instr.dirAfter, Instr.outAfter]
  have hmdio4 : t4.drv .mdio = some true := by
    simp [State.drv, e4.dirBit, e4.outBit, e3.outBit, e2.outBit, Instr.dirAfter, Instr.outAfter]
  refine ⟨t4, by simp [stepN, step1, step2, step3, step4], f4.upc, f4.mode, f4.cmd.trans hc.symm, ?_, hmdc4, hmdio4,
    by rw [e4.port, e3.port, e2.port, e1.port]⟩
  rw [e4.hist, e3.hist, e2.hist, e1.hist, drv_input (hin .mdc), drv_input (hin1 .mdc), drv_input (hin1 .mdio),
    drv_input (hin2 .mdio), drv_input (hin2 .mdc), hmdc3, drv_input hin3, hmdio4]
  simp [lineEvents]

/-! ### A cell BIT(b) (R79) -/

theorem hostBit_of_slot {m : Mode} {c : Cmd} {k : Nat} {b : Bool}
    (h : m = .wr ∧ k < 64 ∧ writeBit c k = some b ∨ m = .rd ∧ k < 46 ∧ readBit c k = some b) :
    hostBit m c k = some b := by
  obtain ⟨rfl, -, hb⟩ | ⟨rfl, -, hb⟩ := h <;> exact hb

/-- Settles O29: of the three line operations of the cell the first moves MDIO only, the others MDC only. -/
theorem serializerCellClocksOneBit : Obligations.SerializerCellClocksOneBit := by
  unfold Obligations.SerializerCellClocksOneBit
  intro s c k b halone hc hupc hslot hmdio hmdc hlow
  have hb := hostBit_of_slot hslot
  have f0 : FrameAt c s.mode (4 + 3 * k) s := ⟨halone, rfl, hc, hupc⟩
  obtain ⟨t1, step1, f1, e1⟩ := f0.lineStep (l := .mdio) (by cases b <;> simp [driveBit])
    (trace_cell hb (r := 0) (by decide)) (decodeUop_drvBit b) (cell_lt_traceLen hb (r := 0) (by decide))
  obtain ⟨t2, step2, f2, e2⟩ := f1.lineStep (.inr (.inl rfl)) (trace_cell hb (r := 1) (by decide))
    (decodeUop_drvH .mdc) (cell_lt_traceLen hb (r := 1) (by decide))
  obtain ⟨t3, step3, f3, e3⟩ := f2.lineStep (.inl rfl) (trace_cell hb (r := 2) (by decide))
    (decodeUop_drvL .mdc) (cell_lt_traceLen hb (r := 2) (by decide))
  have hdir : ∀ l, s.dirBit l = true := by rintro (_ | _) <;> assumption
  have hdir1 : ∀ l, t1.dirBit l = true := fun l => by rw [e1.dirBit, driveBit_dirAfter, hdir]
  have hdir2 : ∀ l, t2.dirBit l = true := fun l => (e2.dirBit l).trans (hdir1 l)
  have hdir3 : ∀ l, t3.dirBit l = true := fun l => (e3.dirBit l).trans (hdir2 l)
  have hset : t1.outBit .mdio = b := by rw [e1.outBit, driveBit_outAfter_mdio]
  have hkeep : t1.outBit .mdc = false := by rw [e1.outBit, driveBit_outAfter_mdc, hlow]
  refine ⟨t3, by simp [stepN, step1, step2, step3], by rw [f3.upc, hupc], f3.mode, f3.cmd.trans hc.symm, ?_,
    hdir3 .mdio, hdir3 .mdc, ?_, ?_, ?_⟩
  · have hfirst : lineEvents .mdio (s.drv .mdio) (t1.drv .mdio) = if s.outBit .mdio = b then [] else [.drive b] := by
      rw [drv_output (hdir _), drv_output (hdir1 _), hset]; rfl
    have hrise : lineEvents .mdc (t1.drv .mdc) (t2.drv .mdc) = [.rise] := by
      rw [drv_output (hdir1 _), drv_output (hdir2 _), e2.outBit, hkeep]; rfl
    have hfall : lineEvents .mdc (t2.drv .mdc) (t3.drv .mdc) = [.fall] := by
      rw [drv_output (hdir2 _), drv_output (hdir3 _), e3.outBit, e2.outBit, hkeep]; rfl
    rw [e3.hist, e2.hist, e1.hist, hfirst, hrise, hfall, List.append_assoc _ [LineEvent.rise]]
    rfl
  · simp [e3.outBit, e2.outBit, Instr.outAfter, hset]
  · simp [e3.outBit, Instr.outAfter]
  · rw [e3.port, e2.port, e1.port]

/-! ### The data phase of a WRITE (R85) -/

theorem shiftLeft_false (v : Half) : shiftLeft v false = v <<< 1 := by simp [shiftLeft]

/-- Bit `j` of the data stands in slot 48 + `j` of a WRITE, the most significant first (R55). -/
theorem writeBit_data {c : Cmd} {d : Half} {j : Nat} (hd : c.wdata = some d) (hj : j < 16) :
    writeBit c (48 + j) = some (d.getLsbD (15 - j)) := by
  rw [writeBit, if_neg (by omega), if_neg (by omega), if_neg (by omega), if_neg (by omega), if_pos (by omega), hd,
    show 63 - (48 + j) = 15 - j by omega]
  rfl

/-- The bit a WRITE shifts to SR[15] is the next data bit (R85). -/
theorem getLsbD_shiftLeft_top (d : Half) {j : Nat} (hj : j < 16) : (d <<< j).getLsbD 15 = d.getLsbD (15 - j) := by
  rw [BitVec.getLsbD_shiftLeft]
  simp
  omega

/-- Before a data-out drive SR holds the data shifted by the bits already driven (R85). -/
theorem Inv.write_sr {s : State} {c : Cmd} {d : Half} (hI : Inv s) (hm : s.mode = .wr) (hc : s.cmd = some c)
    (hd : c.wdata = some d) (hupc : s.upc < 196) : s.sr = some (d <<< dataBitsDone .wr s.upc) := by
  obtain ⟨pa, ra, d', hc', hsr⟩ := hI.writeCmd hm
  cases hc.symm.trans hc'
  cases hd
  exact hsr hupc

/-- Settles O30: SR is the data shifted by the bits driven, so its top bit is that of the slot; after 16 it is 0. -/
theorem dataOutDrivesTheShifter : Obligations.DataOutDrivesTheShifter := by
  unfold Obligations.DataOutDrivesTheShifter
  refine ⟨fun s c d j hI hm hc hd hupc hj => ?_, fun s hI hm hupc => ?_⟩
  · have hcount : dataBitsDone .wr s.upc = j := by simp only [dataBitsDone]; omega
    have hsr := hI.write_sr hm hc hd (by omega)
    rw [hcount] at hsr
    have hout : s.atDataOut = true := by simp [State.atDataOut, hm, hupc]; omega
    have hfetch : s.nextUop = some (drvBit (d.getLsbD (15 - j))) := by
      rw [State.nextUop, hm, hc, hupc, show 148 + 3 * j = 4 + 3 * (48 + j) + 0 by omega]
      exact trace_cell (m := .wr) (writeBit_data hd hj) (by decide)
    have htop := getLsbD_shiftLeft_top d hj
    refine ⟨d <<< j, driveBit (d.getLsbD (15 - j)), _, hsr, htop, by rw [htop]; rfl, by rw [hfetch]; simp,
      exec_uop hI.params (decodeUop_isUop (decodeUop_drvBit _)), ?_, uopResult_cmd _ s⟩
    rw [driveBit_sr _ hout, hsr, Option.map_some, shiftLeft_false]
  · obtain ⟨pa, ra, d, -, hsr⟩ := hI.writeCmd hm
    rw [hsr (by omega), hupc]
    exact congrArg some (BitVec.shiftLeft_eq_zero (Nat.le_refl 16))

end Sys2Proof.Machine
end

section
/-! PROOFS. The reference device (R104): each edge of MDC keeps it in order, and only a sequencer step shows it one. -/

namespace Sys2Proof.Machine

/-! ### The device at an edge of MDC -/

theorem RefDevice.Ok.drive_none {d : RefDevice} (h : d.Ok) (hp : ∀ pa ra, d.phase ≠ .readTail pa ra) :
    d.drive = none := by
  by_contra hd
  obtain ⟨pa, ra, hphase, -⟩ := h.drive hd
  exact hp pa ra hphase

section
variable {d : RefDevice} (hregs : RegFile.wf d.regs = true)
include hregs

/-- A device that hunts is in order when it drives nothing. -/
theorem RefDevice.ok_of_hunting (hp : d.phase = .hunting) (hd : d.drive = none) : d.Ok :=
  ⟨hregs, fun e => by simp [hp] at e, fun _ _ e => by simp [hp] at e, fun e => absurd hd e⟩

/-- A device in a read tail is in order when it drives only from the rising edge of slot 47 on. -/
theorem RefDevice.ok_of_readTail {pa ra : Addr5} (hp : d.phase = .readTail pa ra)
    (hd : d.drive ≠ none → pa ∈ d.present ∧ 16 ≤ d.pos) : d.Ok :=
  ⟨hregs, fun e => by simp [hp] at e, fun _ _ e => by simp [hp] at e, fun e => ⟨pa, ra, hp, hd e⟩⟩

/-- After the 13 header bits the device hunts again or enters a tail, with its buffer empty (R104). -/
theorem RefDevice.header_ok (bs : List Bool) (hd : d.drive = none) (hpos : d.pos = 14) : (d.header bs).Ok := by
  unfold RefDevice.header
  dsimp only
  split
  · exact RefDevice.ok_of_hunting hregs rfl hd
  split
  · exact ⟨hregs, nofun, fun _ _ _ => ⟨Nat.succ_pos 17, hpos⟩, fun e => absurd hd e⟩
  split
  · exact RefDevice.ok_of_readTail hregs rfl fun e => absurd hd e
  · exact RefDevice.ok_of_hunting hregs rfl hd
end

/-- A rising edge keeps the device in order (R104). -/
theorem RefDevice.Ok.rise {d : RefDevice} (h : d.Ok) (v : Bool) : (d.rise v).Ok := by
  unfold RefDevice.rise
  split
  next hp =>
    have hd := h.drive_none (by simp [hp])
    split
    · exact RefDevice.ok_of_hunting h.regs hp hd
    split
    · exact ⟨h.regs, fun _ => ⟨Nat.succ_pos 12, rfl⟩, nofun, fun e => absurd hd e⟩
    · exact RefDevice.ok_of_hunting h.regs hp hd
  next hp =>
    have hd := h.drive_none (by simp [hp])
    obtain ⟨hlen, hpos⟩ := h.framing hp
    dsimp only
    split
    next h13 =>
      have hlen13 : d.buffer.length + 1 = 13 := by simpa using h13
      exact RefDevice.header_ok (d := { d with pos := d.pos + 1, buffer := d.buffer ++ [v] }) h.regs _ hd
        (show d.pos + 1 = 14 by omega)
    next h13 =>
      refine ⟨h.regs, fun _ => ?_, fun _ _ e => by simp [hp] at e, fun e => absurd hd e⟩
      simp at h13 ⊢; omega
  next pa ra hp =>
    have hd := h.drive_none (by simp [hp])
    obtain ⟨hlen, hpos⟩ := h.writeTail pa ra hp
    dsimp only
    split
    · split
      · exact RefDevice.ok_of_hunting (regPut_wf h.regs _ _) rfl hd
      · exact RefDevice.ok_of_hunting h.regs rfl hd
    next h18 =>
      refine ⟨h.regs, fun e => by simp [hp] at e, fun _ _ _ => ?_, fun e => absurd hd e⟩
      simp at h18 ⊢; omega
  next pa ra hp =>
    dsimp only
    split
    · exact RefDevice.ok_of_readTail h.regs hp fun e => absurd rfl e
    split
    next hslot =>
      obtain ⟨hlo, -, hin⟩ := hslot
      exact RefDevice.ok_of_readTail h.regs hp fun _ => ⟨hin, show 16 ≤ d.pos + 1 by omega⟩
    · refine RefDevice.ok_of_readTail h.regs hp fun e => ?_
      obtain ⟨pa', ra', hphase, hin, hpos⟩ := h.drive e
      cases hp.symm.trans hphase
      exact ⟨hin, Nat.le_succ_of_le hpos⟩

/-- A falling edge keeps the device in order (R104). -/
theorem RefDevice.Ok.fall {d : RefDevice} (h : d.Ok) : d.fall.Ok := by
  unfold RefDevice.fall
  split
  · exact h
  · exact h
  · exact h
  · split
    · exact RefDevice.ok_of_hunting h.regs rfl rfl
    · exact h

/-! ### The devices over a step -/

/-- A sequencer step shows the reference device at most one edge of MDC. -/
theorem devicesAfter_reference {s t : State} {d : RefDevice} (hs : s.devices = .reference d)
    (ht : t.devices = s.devices) :
    (∃ v, (devicesAfter s t).devices = .reference (d.rise v)) ∨
      (devicesAfter s t).devices = .reference d.fall ∨ (devicesAfter s t).devices = .reference d := by
  unfold devicesAfter
  rw [hs]
  dsimp only
  split
  · split
    · exact .inl ⟨_, rfl⟩
    · exact .inl ⟨_, rfl⟩
  · exact .inr (.inl rfl)
  · exact .inr (.inr (ht.trans hs))

/-- The oracle stays an oracle. -/
theorem devicesAfter_oracle {s t : State} {l : List Drive} (hs : s.devices = .oracle l)
    (ht : t.devices = s.devices) : (devicesAfter s t).devices = .oracle l.tail := by
  unfold devicesAfter
  rw [hs]
  cases l with
  | nil => exact ht.trans hs
  | cons a rest => rfl

@[simp] theorem finishUop_devices (s t : State) : (finishUop s t).devices = (devicesAfter s t).devices := by
  rw [finishUop_eq]; split <;> simp [settled]

theorem devicesOk_of_same {s t : State} (h : s.devicesOk) (he : t.devices = s.devices) : t.devicesOk :=
  fun d hd => h d (he.symm.trans hd)

/-- A sequencer step keeps the device in order. -/
theorem devicesOk_after_uop {s : State} (h : s.devicesOk) (i : Instr) :
    (finishUop s (uopResult i s)).devicesOk := by
  intro d' hd'
  rw [finishUop_devices] at hd'
  cases hs : s.devices with
  | oracle l =>
    rw [devicesAfter_oracle hs (uopResult_devices i s)] at hd'
    cases hd'
  | reference d =>
    have hd := h d hs
    obtain ⟨v, e⟩ | e | e := devicesAfter_reference hs (uopResult_devices i s) <;> cases hd'.symm.trans e
    · exact hd.rise v
    · exact hd.fall
    · exact hd

/-- Settles O43: a sequencer step shows the device one edge at most, and no other move touches it. -/
theorem everyStepKeepsTheDeviceInOrder : Obligations.EveryStepKeepsTheDeviceInOrder := by
  unfold Obligations.EveryStepKeepsTheDeviceInOrder
  intro s t hok h
  refine step_invariant (P := State.devicesOk) (fun _ _ hs => hs) (fun s t _ hs hm => ?_) hok h
  cases hm with
  | uop u i => exact devicesOk_after_uop hs i
  | abort => exact devicesOk_of_same hs (abortAction_devices s)
  | other r w => exact devicesOk_of_same hs (regWrite_devices r w s)
  | _ => exact hs

end Sys2Proof.Machine
end

section
/-! PROOFS. The traces micro-op by micro-op, from the command word and the header (R95, R99), and their slots and
phases (R96, R100). -/

namespace Sys2Proof.Machine

/-! ### The host's bits of a frame are bits of the command word (R55 to R57) -/

section
variable (st op : BitVec 2) (pa ra : Addr5) (low : BitVec 18)

theorem cmdWord_getLsbD_header {k : Nat} (h32 : 32 ≤ k) (h45 : k ≤ 45) :
    (st ++ op ++ pa ++ ra).getLsbD (45 - k) = (cmdWord st op pa ra low).getLsbD (63 - k) := by
  rw [← cmdWord_header st op pa ra low, BitVec.getLsbD_extractLsb', decide_eq_true (by omega), Bool.true_and,
    show 18 + (45 - k) = 63 - k by omega]

theorem cmdWord_getLsbD_low {j : Nat} (hj : j < 18) : (cmdWord st op pa ra low).getLsbD j = low.getLsbD j := by
  rw [cmdWord, BitVec.getLsbD_append, if_pos hj]

end

/-- In the header the host drives the upper bits of the command word, whatever its lower bits are (R57). -/
theorem hostBit_header {m : Mode} (hm : m = .wr ∨ m = .rd) (c : Cmd) (low : BitVec 18) {k : Nat} (h32 : 32 ≤ k)
    (h45 : k ≤ 45) : hostBit m c k = some ((cmdWord 0b01#2 c.op c.pa c.ra low).getLsbD (63 - k)) := by
  rw [← cmdWord_getLsbD_header _ _ _ _ low h32 h45]
  obtain ⟨hw, hr⟩ := frameBits_header c h32 h45
  rcases hm with rfl | rfl
  · exact hw
  · exact hr

theorem hostBit_preamble {m : Mode} (hm : m = .wr ∨ m = .rd) (c : Cmd) {k : Nat} (hk : k < 32) :
    hostBit m c k = some true := by
  rcases hm with rfl | rfl
  · exact if_pos hk
  · exact if_pos hk

/-- After the preamble a WRITE drives its command word, MSB first (R55). -/
theorem hostBit_write (pa ra : Addr5) (d : Half) {k : Nat} (h32 : 32 ≤ k) (h63 : k < 64) :
    hostBit .wr ⟨opWrite, pa, ra, some d⟩ k =
      some ((cmdWord 0b01#2 opWrite pa ra (0b10#2 ++ d)).getLsbD (63 - k)) := by
  by_cases h45 : k ≤ 45
  · exact hostBit_header (.inl rfl) _ _ h32 h45
  rw [cmdWord_getLsbD_low _ _ _ _ _ (by omega), BitVec.getLsbD_append]
  by_cases h48 : 48 ≤ k
  · obtain ⟨j, rfl⟩ := Nat.exists_eq_add_of_le h48
    rw [if_pos (by omega), show 63 - (48 + j) = 15 - j by omega]
    exact writeBit_data rfl (by omega)
  · obtain rfl | rfl : k = 46 ∨ k = 47 := by omega
    · rfl
    · rfl

/-! ### The traces -/

/-- The codes of a host-driven cell (R79). -/
theorem trace_cell_codes {m : Mode} {c : Cmd} {k : Nat} {b : Bool} (hb : hostBit m c k = some b) :
    trace m (some c) (4 + 3 * k) = some (if b then 0x2#4 else 0x0#4) ∧
      trace m (some c) (5 + 3 * k) = some 0x3#4 ∧ trace m (some c) (6 + 3 * k) = some 0x1#4 := by
  refine ⟨?_, ?_, ?_⟩
  · exact trace_cell hb (r := 0) (by decide)
  · rw [show 5 + 3 * k = 4 + 3 * k + 1 by omega, trace_cell hb (by decide)]; rfl
  · rw [show 6 + 3 * k = 4 + 3 * k + 2 by omega, trace_cell hb (by decide)]; rfl

/-- A data-in cell of a READ (R86, R99). -/
theorem trace_sampleCell (c : Cmd) {j r : Nat} (hj : j < 16) (hr : r < 3) :
    trace .rd (some c) (145 + 3 * j + r) = some (sampleCellUop r) := by
  change readTrace c _ = _
  rw [readTrace, if_neg (by omega), if_neg (by omega), if_neg (by omega), if_neg (by omega), if_neg (by omega),
    if_pos (by omega), show (145 + 3 * j + r - 145) % 3 = r by omega]

theorem trace_past_end {m : Mode} {c : Option Cmd} {n : Nat} (hm : m = .wr ∨ m = .rd) (hn : traceLen m ≤ n) :
    trace m c n = none := by
  cases h : trace m c n with
  | none => rfl
  | some u => exact absurd (trace_frame_bounds hm h).2 (Nat.not_lt.mpr hn)

/-- Settles O7: a slot's code is that of its bit, and the bits after the preamble are those of the command word. -/
theorem writeTraceFollowsTheCommandWord : Obligations.WriteTraceFollowsTheCommandWord := by
  unfold Obligations.WriteTraceFollowsTheCommandWord
  intro pa ra d c hc
  cases (encode_write pa ra d).symm.trans hc
  refine ⟨rfl, rfl, rfl, rfl, fun k hk => ?_, rfl, rfl, fun n hn => trace_past_end (.inl rfl) hn⟩
  by_cases h32 : k < 32
  · simpa [h32] using trace_cell_codes (hostBit_preamble (.inl rfl) ⟨opWrite, pa, ra, some d⟩ h32)
  · simpa [h32] using trace_cell_codes (hostBit_write pa ra d (Nat.le_of_not_lt h32) hk)

/-- Settles O8: the 46 host-driven slots carry ones and the header, the sixteen data-in cells hold a SAMPLE. -/
theorem readTraceFollowsTheHeader : Obligations.ReadTraceFollowsTheHeader := by
  unfold Obligations.ReadTraceFollowsTheHeader
  intro pa ra h hh
  have hhdr : header ⟨opRead, pa, ra, none⟩ = h :=
    ((headerIsTheCommandsUpperBits.1 pa ra none).2).trans hh.symm
  refine ⟨rfl, rfl, rfl, rfl, fun k hk => ?_, rfl, rfl, rfl, fun j hj => ⟨?_, ?_, ?_⟩, rfl, rfl,
    fun n hn => trace_past_end (.inr rfl) hn⟩
  · by_cases h32 : k < 32
    · simpa [h32] using trace_cell_codes (hostBit_preamble (.inr rfl) ⟨opRead, pa, ra, none⟩ h32)
    · obtain ⟨-, hbit⟩ := frameBits_header ⟨opRead, pa, ra, none⟩ (Nat.le_of_not_lt h32) (Nat.le_of_lt_succ hk)
      rw [hhdr] at hbit
      simpa [h32] using trace_cell_codes (m := .rd) hbit
  · exact trace_sampleCell _ hj (r := 0) (by decide)
  · rw [show 146 + 3 * j = 145 + 3 * j + 1 by omega]; exact trace_sampleCell _ hj (by decide)
  · rw [show 147 + 3 * j = 145 + 3 * j + 2 by omega]; exact trace_sampleCell _ hj (by decide)

/-! ### Slots and phases -/

/-- The first slot of the DATA phase (R96, R100). -/
def dataSlot : Mode → Nat
  | .wr => 48
  | .rd => 47
  | .idle => 0
  | .rst => 0

/-- The phase whose slots hold `k`. -/
def slotPhase (m : Mode) (k : Nat) : Phase :=
  if k < 32 then .preamble else if k < 34 then .start else if k < 36 then .opcode else if k < 41 then .phyad
  else if k < 46 then .regad else if k < dataSlot m then .ta else .data

theorem slotPhase_ne (m : Mode) (k : Nat) : slotPhase m k ≠ .setup ∧ slotPhase m k ≠ .release := by
  unfold slotPhase
  split_ifs <;> decide

section
variable {m : Mode} {n : Nat} (hm : m = .wr ∨ m = .rd)

/-- A position is before a slot's first micro-op exactly when its own slot is an earlier one. -/
theorem lt_slot_iff (h4 : ¬ n < 4) (j : Nat) : n < 4 + 3 * j ↔ (n - 4) / 3 < j := by omega

include hm

theorem phaseOf_slot (h4 : ¬ n < 4) (hn : n < traceLen m - 2) : phaseOf m n = some (slotPhase m ((n - 4) / 3)) := by
  rcases hm with rfl | rfl <;> simp only [traceLen, Nat.reduceSub] at hn <;>
    simp only [slotPhase, ← lt_slot_iff h4, dataSlot, apply_ite some, phaseOf, if_neg h4, if_pos hn, Nat.reduceMul,
      Nat.reduceAdd]

theorem slotOf_eq (n : Nat) : slotOf m n = if 4 ≤ n ∧ n < traceLen m - 2 then some ((n - 4) / 3) else none := by
  rcases hm with rfl | rfl <;> rfl

theorem slotOf_eq_some {k : Nat} (h : slotOf m n = some k) :
    k = (n - 4) / 3 ∧ phaseOf m n = some (slotPhase m k) := by
  rw [slotOf_eq hm] at h
  split at h
  next hn => cases h; exact ⟨rfl, phaseOf_slot hm (Nat.not_lt.mpr hn.1) hn.2⟩
  · cases h

theorem slotOf_none_iff (hn : n < traceLen m) :
    slotOf m n = none ↔ phaseOf m n = some .setup ∨ phaseOf m n = some .release := by
  rw [slotOf_eq hm]
  by_cases h4 : n < 4
  · rcases hm with rfl | rfl <;> simp [phaseOf, h4]
  by_cases hrel : n < traceLen m - 2
  · simp [phaseOf_slot hm h4 hrel, slotPhase_ne, hrel, Nat.le_of_not_lt h4]
  · have hout : ∀ j, j ≤ traceLen m - 2 → ¬ n < j := by omega
    rcases hm with rfl | rfl <;> simp only [traceLen] at hn hout <;> simp [traceLen, phaseOf, hout, hn]
end

/-- Settles O10: the phases' bounds are those of their slots, three positions to a slot. -/
theorem slotsLieInTheirPhases : Obligations.SlotsLieInTheirPhases := by
  unfold Obligations.SlotsLieInTheirPhases
  exact ⟨fun _ _ => slotOf_eq_some (.inl rfl), fun _ _ => slotOf_eq_some (.inr rfl),
    fun _ => slotOf_none_iff (.inl rfl), fun _ => slotOf_none_iff (.inr rfl)⟩

end Sys2Proof.Machine
end

section
/-! PROOFS. Issue(C) (R94), one sequencer step (R91, R92), its last one (R102), and a trace run to its end (R93). -/

namespace Sys2Proof.Machine

/-! ### Issue(C) (R94, R105, R106) -/

theorem busy_of_mode {s : State} (h : s.mode ≠ .idle) : s.busy = true := (busy_iff s).mpr h
theorem not_busy_of_mode {s : State} (h : s.mode = .idle) : s.busy = false := (not_busy_iff s).mpr h

theorem step_of_issue {s : State} {c : Word} {rest : List Turn} (hw : s.params.wf = true)
    (ht : s.turns = .issue c :: rest) : step s = issueTurn c { s with turns := rest } := by
  simp [step, nextTurn, takeTurn, hw, ht]

theorem issueTurn_busy {s : State} (c : Word) (h : s.mode ≠ .idle) :
    issueTurn c s = .next (raiseCmdWhileBusy s) := by
  unfold issueTurn
  split
  next i hi => obtain rfl | rfl := decodeCmd_ok hi <;> simp [exec, execWrite, execRead, busy_of_mode h]
  · rw [if_pos (busy_of_mode h)]

theorem issueTurn_idle_write {s : State} {c : Word} (h : s.mode = .idle) (hc : WriteFields c) :
    issueTurn c s = .next (acceptWrite (cmdPa c) (cmdRa c) (cmdData c) s) := by
  simp [issueTurn, decodeCmd_write hc, exec, execWrite, not_busy_of_mode h]

theorem issueTurn_idle_read {s : State} {c : Word} (h : s.mode = .idle) (hc : ReadFields c) :
    issueTurn c s = .next (acceptRead (cmdPa c) (cmdRa c) s) := by
  simp [issueTurn, decodeCmd_read hc, exec, execRead, not_busy_of_mode h]

theorem issueTurn_idle_illegal {s : State} {c : Word} (h : s.mode = .idle) (hw : ¬ WriteFields c)
    (hr : ¬ ReadFields c) : issueTurn c s = .next (raiseIllegalCommand s) := by
  obtain ⟨e, he⟩ := decodeCmd_other hw hr
  simp [issueTurn, he, not_busy_of_mode h]

/-- Settles O20: BUSY decides between CmdWhileBusy and the rest, the two rows of the table between accept and
IllegalCommand. -/
theorem issueAcceptsOrRaises : Obligations.IssueAcceptsOrRaises := by
  unfold Obligations.IssueAcceptsOrRaises
  intro s c rest hw ht
  rw [step_of_issue hw ht, ne_eq, ne_eq, ne_eq, writeMask_iff, readMask_iff]
  refine ⟨fun hm => issueTurn_busy c hm, fun hm => issueTurn_idle_illegal hm, fun hm hc => ?_, fun hm hc => ?_⟩
  · have hop : c.extractLsb' 28 2 = opWrite := hc.2.1
    rw [hop]
    exact issueTurn_idle_write (s := { s with turns := rest }) hm hc
  · have hop : c.extractLsb' 28 2 = opRead := hc.2
    rw [hop]
    exact issueTurn_idle_read (s := { s with turns := rest }) hm hc

/-- Settles O21: BUSY alone decides between the accept of R94 and CmdWhileBusy. -/
theorem commandsExecuteWhole : Obligations.CommandsExecuteWhole := by
  unfold Obligations.CommandsExecuteWhole
  intro s pa ra d x
  refine ⟨fun hm => ⟨?_, ?_⟩, fun hm => ⟨?_, ?_⟩⟩
  · simp only [exec, execWrite, not_busy_of_mode hm]; rfl
  · simp only [exec, execRead, not_busy_of_mode hm]; rfl
  · simp only [exec, execWrite, busy_of_mode hm]; rfl
  · simp only [exec, execRead, busy_of_mode hm]; rfl

/-- Settles O23: the turn `issue` hands the decoded instruction to `exec`. -/
theorem stepRunsTheIssuedCommand : Obligations.StepRunsTheIssuedCommand := by
  unfold Obligations.StepRunsTheIssuedCommand
  intro s c rest i hw ht hi
  rw [step_of_issue hw ht, issueTurn, hi]

/-! ### One sequencer step (R91) -/

section
variable (l : List Turn) (s : State)
@[simp] theorem withTurns_params : (s.withTurns l).params = s.params := rfl
@[simp] theorem withTurns_upc : (s.withTurns l).upc = s.upc := rfl
@[simp] theorem withTurns_rdata : (s.withTurns l).rdata = s.rdata := rfl
@[simp] theorem withTurns_rdv : (s.withTurns l).rdv = s.rdv := rfl
@[simp] theorem withTurns_aborted : (s.withTurns l).aborted = s.aborted := rfl
@[simp] theorem withTurns_port : (s.withTurns l).port = s.port := rfl
end

/-- A sequencer turn is taken in the same state, some turns aside. -/
theorem SequencerNext.eq_withTurns {s s' : State} (h : SequencerNext s s') : ∃ l, s' = s.withTurns l := by
  obtain ⟨-, ⟨-, rfl⟩ | ⟨rest, -, rfl⟩⟩ := h
  · exact ⟨s'.turns, rfl⟩
  · exact ⟨rest, rfl⟩

theorem SequencerNext.step_uop {s s' : State} (h : SequencerNext s s') (hbusy : s.mode ≠ .idle)
    (hmap : s.fault.mapFailed = false) {u : BitVec 4} (hu : s.nextUop = some u) {i : Instr}
    (hi : decodeUop u = .ok i) : step s = .next (finishUop s' (uopResult i s')) := by
  rw [step_of_sequencerNext h]
  obtain ⟨l, rfl⟩ := h.eq_withTurns
  exact sequencerTurn_uop (s := s.withTurns l) h.1 (busy_of_mode hbusy) hmap hu hi

/-- Settles O24: a micro-op of a trace always completes, and `finishUop` does the rest of R91. -/
theorem stepRunsTheTracesMicroOp : Obligations.StepRunsTheTracesMicroOp := by
  unfold Obligations.StepRunsTheTracesMicroOp
  intro s s' u i hnext hbusy hmap hu hi
  refine ⟨uopResult i s', ?_, hnext.step_uop hbusy hmap hu hi⟩
  obtain ⟨l, rfl⟩ := hnext.eq_withTurns
  exact exec_uop (s := s.withTurns l) hnext.1 (decodeUop_isUop hi)

/-- Settles O25: the fields after a step that is and one that is not the last of its trace. -/
theorem sequencerStepSettles : Obligations.SequencerStepSettles := by
  unfold Obligations.SequencerStepSettles
  intro s t
  have hdrive : s.devNow.isSome = decide (s.devNow ≠ none) := by cases s.devNow <;> rfl
  refine ⟨by rw [finishUop_fault, hdrive], by simp, by simp, by simp, by simp, by simp, by simp, by simp, by simp,
    by simp, fun hn => ?_, fun hn => ?_⟩
  · exact ⟨finishUop_running_upc hn, finishUop_running_mode hn, finishUop_running_rdata hn,
      finishUop_running_rdv hn, finishUop_running_aborted hn, finishUop_running_apend hn⟩
  · exact ⟨finishUop_last_mode hn, finishUop_last_upc hn, finishUop_last_apend hn⟩

/-- A sequencer step that is not the last of its trace moves on and stays in its command. -/
theorem uop_running {s : State} (i : Instr) (hn : s.upc + 1 ≠ traceLen s.mode) :
    (finishUop s (uopResult i s)).mode = s.mode ∧ (finishUop s (uopResult i s)).upc = s.upc + 1 ∧
      (finishUop s (uopResult i s)).apend = s.apend := by
  have hrun : (uopResult i s).upc + 1 ≠ traceLen (uopResult i s).mode := by simpa using hn
  simp [finishUop_running_mode hrun, finishUop_running_upc hrun, finishUop_running_apend hrun]

/-! ### The oracle's answers (R92) -/

theorem issueTurn_devices {s t : State} {c : Word} (h : issueTurn c s = .next t) : t.devices = s.devices := by
  obtain ⟨-, rfl⟩ | ⟨-, rfl | ⟨_, _, _, rfl⟩ | ⟨_, _, rfl⟩⟩ := issueTurn_cases h <;> rfl

theorem sampledTurn_devices {s t : State} {r a : Bool} {c : Option Word} (h : sampledTurn r a c s = .next t) :
    t.devices = s.devices := by
  unfold sampledTurn at h
  split at h
  · cases h; rfl
  dsimp only at h
  have habort : (if a then abortAction s else s).devices = s.devices := by split <;> simp
  split at h
  · cases h; exact habort
  · exact (issueTurn_devices h).trans habort

/-- Only a turn that lets the sequencer move can change the devices. -/
theorem takeTurn_devices {x : Turn} {s t : State} (hseq : x ≠ .sequencer) (hwait : x ≠ .wait)
    (h : takeTurn x s = .next t) : t.devices = s.devices := by
  cases x with
  | sequencer => exact absurd rfl hseq
  | wait => exact absurd rfl hwait
  | issue c => exact issueTurn_devices h
  | abort => cases h; exact abortAction_devices s
  | reset => cases h; rfl
  | readStatus => cases h; rfl
  | sampled r a c => exact sampledTurn_devices h
  | otherAgent r w =>
    simp only [takeTurn, outcome] at h
    split at h
    · next ht =>
      cases h
      obtain ⟨rfl, -⟩ := otherAgentWrite_ok ht
      exact regWrite_devices r w s
    · cases h
  | terminate => cases h; rfl

/-- Settles O26: the answer is read and dropped by `finishUop`, and no other turn reaches the devices. -/
theorem oracleAnswersOneSequencerStepEach : Obligations.OracleAnswersOneSequencerStepEach := by
  unfold Obligations.OracleAnswersOneSequencerStepEach
  refine ⟨fun s s' t a rest hnext hbusy hdev h => ?_, fun s t x rest ht hseq hwait h => ?_⟩
  · rw [step_of_sequencerNext hnext] at h
    obtain ⟨l, rfl⟩ := hnext.eq_withTurns
    refine ⟨by simp [State.devNow, hdev], ?_⟩
    obtain ⟨hidle, -⟩ | ⟨u, i, -, -, -, rfl⟩ := sequencerTurn_cases (s := s.withTurns l) hnext.1 h
    · exact absurd hidle hbusy
    · rw [finishUop_devices]
      exact devicesAfter_oracle (s := s.withTurns l) (l := a :: rest) hdev (uopResult_devices i _)
  · rw [step, nextTurn, ht] at h
    split at h
    · exact takeTurn_devices (s := { s with turns := rest }) hseq hwait h
    · cases h

/-! ### The last micro-op of a trace (R102) -/

/-- Every trace that has a command, where it needs one, ends with SETIN MDC (R87, R123). -/
theorem trace_last {m : Mode} {c : Option Cmd} (hm : m ≠ .idle) (hc : m = .rst ∨ c ≠ none) :
    trace m c (traceLen m - 1) = some (setIn .mdc) := by
  cases m with
  | idle => exact absurd rfl hm
  | rst => rfl
  | wr | rd =>
    obtain ⟨c, rfl⟩ := Option.ne_none_iff_exists'.mp (hc.resolve_left nofun)
    rfl

theorem nextUop_last {s : State} (hm : s.mode ≠ .idle) (hc : s.mode = .rst ∨ s.cmd ≠ none)
    (hn : s.upc + 1 = traceLen s.mode) : s.nextUop = some (setIn .mdc) := by
  rw [State.nextUop, show s.upc = traceLen s.mode - 1 by omega]
  exact trace_last hm hc

/-- A micro-op makes one access (R34). -/
theorem uopResult_port_length {i : Instr} (hi : Instr.isUop i = true) (s : State) :
    (uopResult i s).port.length = s.port.length + 1 := by
  cases i with
  | write | read => cases hi
  | driveLow l | driveHigh l | setInput l | setOutput l | sample l => simp [uopResult]

/-- Settles O27: the last micro-op is SETIN MDC, which leaves SR to the completion of R102. -/
theorem lastMicroOpCompletes : Obligations.LastMicroOpCompletes := by
  unfold Obligations.LastMicroOpCompletes
  intro s s' hnext hbusy hmap hc hn
  have hstep := hnext.step_uop hbusy hmap (nextUop_last hbusy hc hn) (decodeUop_setIn .mdc)
  obtain ⟨l, rfl⟩ := hnext.eq_withTurns
  have hlast : (uopResult (.setInput .mdc) (s.withTurns l)).upc + 1 =
      traceLen (uopResult (.setInput .mdc) (s.withTurns l)).mode := by simpa using hn
  have hsr : (uopResult (.setInput .mdc) (s.withTurns l)).sr = s.sr := (direction_out_sr (l := .mdc) (.inl rfl)).2
  have hrdata := finishUop_last_rdata (s := s.withTurns l) hlast
  have hrdv := finishUop_last_rdv (s := s.withTurns l) hlast
  have haborted := finishUop_last_aborted (s := s.withTurns l) hlast
  rw [hsr] at hrdata
  refine ⟨_, hstep, finishUop_last_mode hlast, finishUop_last_upc hlast, finishUop_last_apend hlast, ?_,
    fun hm ha => ?_, fun hm ha => ?_, fun hm ha => ?_, fun hm => ?_⟩
  · rw [finishUop_port, uopResult_port_length rfl, withTurns_port]
  · simp [hrdata, hrdv, haborted, hm, ha]
  · simp [hrdata, hrdv, haborted, hm, ha]
  · simp [hrdata, hrdv, haborted, hm, ha]
  · simp [hrdata, hrdv, haborted, hm]

end Sys2Proof.Machine
end

section
/-! PROOFS. Under the invariant: a trace runs to its end (R93), completion releases the lines (R101), and SAMPLE
stands only where MDIO is released (R98). -/

namespace Sys2Proof.Machine

/-! ### Every position of a trace holds a micro-op (R103) -/

theorem hostBit_some {m : Mode} {c : Cmd} (hm : m = .wr ∨ m = .rd) (hc : m = .wr → c.wdata ≠ none) {k : Nat}
    (hk : k ≤ lastBitSlot m) : ∃ b, hostBit m c k = some b := by
  by_cases h32 : k < 32
  · exact ⟨_, hostBit_preamble hm c h32⟩
  by_cases h45 : k ≤ 45
  · exact ⟨_, hostBit_header hm c 0 (Nat.le_of_not_lt h32) h45⟩
  obtain rfl | rfl := hm
  · obtain ⟨d, hd⟩ := Option.ne_none_iff_exists'.mp (hc rfl)
    change k ≤ 63 at hk
    by_cases h48 : 48 ≤ k
    · obtain ⟨j, rfl⟩ := Nat.exists_eq_add_of_le h48
      exact ⟨_, writeBit_data hd (by omega)⟩
    · obtain rfl | rfl : k = 46 ∨ k = 47 := by omega
      · exact ⟨_, rfl⟩
      · exact ⟨_, rfl⟩
  · exact absurd hk h45

theorem trace_release {m : Mode} {c : Cmd} (hm : m = .wr ∨ m = .rd) {r : Nat} :
    trace m (some c) (traceLen m - 2 + r) = releaseUop r := by
  rcases hm with rfl | rfl
  · change writeTrace c (196 + r) = _
    rw [writeTrace, if_neg (by omega), if_neg (by omega), Nat.add_sub_cancel_left]
  · change readTrace c (193 + r) = _
    rw [readTrace, if_neg (by omega), if_neg (by omega), if_neg (by omega), if_neg (by omega), if_neg (by omega),
      if_neg (by omega), Nat.add_sub_cancel_left]

/-- At every position before its end a frame holds a micro-op, where the command has the data it needs. -/
theorem trace_some {m : Mode} {c : Cmd} (hm : m = .wr ∨ m = .rd) (hc : m = .wr → c.wdata ≠ none) {n : Nat}
    (hn : n < traceLen m) : ∃ u i, trace m (some c) n = some u ∧ decodeUop u = .ok i ∧ FrameUop c m n i := by
  suffices h : ∃ u, trace m (some c) n = some u by
    obtain ⟨u, hu⟩ := h
    obtain ⟨i, hi, hf⟩ : ∃ i, decodeUop u = .ok i ∧ FrameUop c m n i := by
      rcases hm with rfl | rfl
      · exact frameUop_of_writeTrace hu
      · exact frameUop_of_readTrace hu
    exact ⟨u, i, hu, hi, hf⟩
  by_cases h4 : n < 4
  · rw [trace_setup c hm h4]
    interval_cases n <;> exact ⟨_, rfl⟩
  by_cases hrel : traceLen m - 2 ≤ n
  · obtain ⟨r, rfl⟩ := Nat.exists_eq_add_of_le hrel
    have hr : r < 2 := by omega
    rw [trace_release hm]
    interval_cases r <;> exact ⟨_, rfl⟩
  by_cases hslot : (n - 4) / 3 ≤ lastBitSlot m
  · obtain ⟨b, hb⟩ := hostBit_some hm hc hslot
    rw [show n = 4 + 3 * ((n - 4) / 3) + (n - 4) % 3 by omega, trace_cell hb (by omega)]
    have hr : (n - 4) % 3 < 3 := by omega
    interval_cases (n - 4) % 3 <;> exact ⟨_, rfl⟩
  obtain rfl | rfl := hm
  · simp only [traceLen, lastBitSlot] at hrel hslot
    omega
  · simp only [traceLen, lastBitSlot] at hrel hslot
    by_cases h145 : n < 145
    · obtain rfl | rfl | rfl : n = 142 ∨ n = 143 ∨ n = 144 := by omega
      all_goals exact ⟨_, rfl⟩
    · rw [show n = 145 + 3 * ((n - 145) / 3) + (n - 145) % 3 by omega]
      exact ⟨_, trace_sampleCell c (by omega) (by omega)⟩

/-- Under the invariant a busy block has a micro-op to perform. -/
theorem Inv.exists_uop {s : State} (hI : Inv s) (hbusy : s.mode ≠ .idle) :
    ∃ u i, s.nextUop = some u ∧ decodeUop u = .ok i := by
  have hpos := hI.position hbusy
  unfold State.nextUop
  cases hm : s.mode with
  | idle => exact absurd hm hbusy
  | rst =>
    have hr : s.upc < 2 := by rwa [hm] at hpos
    change ∃ u i, releaseUop s.upc = some u ∧ _
    interval_cases s.upc
    · exact ⟨_, _, rfl, decodeUop_setIn .mdio⟩
    · exact ⟨_, _, rfl, decodeUop_setIn .mdc⟩
  | wr =>
    obtain ⟨pa, ra, d, hc, -⟩ := hI.writeCmd hm
    obtain ⟨u, i, hu, hi, -⟩ := trace_some (c := ⟨opWrite, pa, ra, some d⟩) (.inl rfl) (fun _ => nofun)
      (hm ▸ hpos)
    exact ⟨u, i, hc ▸ hu, hi⟩
  | rd =>
    obtain ⟨pa, ra, hc⟩ := hI.readCmd hm
    obtain ⟨u, i, hu, hi, -⟩ := trace_some (c := ⟨opRead, pa, ra, none⟩) (.inr rfl) nofun (hm ▸ hpos)
    exact ⟨u, i, hc ▸ hu, hi⟩

/-! ### A trace left to the sequencer (R93) -/

/-- What a trace that runs from `s` in `n` steps leaves (R102). -/
structure Completed (s : State) (n : Nat) (t : State) : Prop where
  mode : t.mode = .idle
  released : s.terminated = false → t.released
  turns : t.turns = []
  apend : t.apend = false
  aborted : t.aborted = s.apend
  rdv : t.rdv = (decide (s.mode = .rd) && !s.apend)
  port : t.port.length = s.port.length + n

section
variable {s : State} (hI : Inv s) (halone : SequencerAlone s) (hbusy : s.mode ≠ .idle)
include hI halone hbusy

theorem completed_last {u : BitVec 4} {i : Instr} (hu : s.nextUop = some u) (hi : decodeUop u = .ok i)
    (hn : s.upc + 1 = traceLen s.mode) : Completed s 1 (finishUop s (uopResult i s)) := by
  have hlast : (uopResult i s).upc + 1 = traceLen (uopResult i s).mode := by simpa using hn
  have hmode := finishUop_last_mode (s := s) hlast
  refine ⟨hmode, fun ht => ?_, (halone.after_uop i).turns, finishUop_last_apend hlast, ?_, ?_, ?_⟩
  · exact (hI.after_last hbusy hu hi hn).idleReleased (by simpa using ht) hmode
  · rw [finishUop_last_aborted hlast, uopResult_aborted, uopResult_apend, uopResult_mode, hI.aborted_busy hbusy]
    cases ha : s.apend with
    | false => rfl
    | true => rw [decide_eq_true (hI.apendBusy ha)]; rfl
  · simp [finishUop_last_rdv hlast, hI.rdv_busy hbusy]
  · rw [finishUop_port, uopResult_port_length (decodeUop_isUop hi)]

theorem completed_steps {r : Nat} (hr : s.upc + (r + 1) = traceLen s.mode) :
    ∃ t, stepN (r + 1) s = .next t ∧ Completed s (r + 1) t := by
  induction r generalizing s with
  | zero =>
    obtain ⟨u, i, hu, hi⟩ := hI.exists_uop hbusy
    exact ⟨_, by simp [stepN, halone.step_uop hu hi], completed_last hI halone hbusy hu hi hr⟩
  | succ r ih =>
    obtain ⟨u, i, hu, hi⟩ := hI.exists_uop hbusy
    obtain ⟨hmode, hupc, hapend⟩ := uop_running i (s := s) (by omega)
    obtain ⟨t, ht, hdone⟩ := ih (hI.after_uop hbusy hu hi (by omega)) (halone.after_uop i) (by rwa [hmode])
      (by rw [hmode, hupc]; omega)
    obtain ⟨hidle, hrel, hturns, ha, haborted, hrdv, hport⟩ := hdone
    rw [hmode, hapend] at hrdv
    rw [hapend] at haborted
    refine ⟨t, ?_, hidle, fun h => hrel (by simpa using h), hturns, ha, haborted, hrdv, ?_⟩
    · rw [stepN, halone.step_uop hu hi]; exact ht
    · rw [hport, finishUop_port, uopResult_port_length (decodeUop_isUop hi)]; omega
end

/-- Settles O35: by induction on the micro-ops left; the invariant keeps the sequencer in its trace. -/
theorem everyTraceCompletes : Obligations.EveryTraceCompletes := by
  unfold Obligations.EveryTraceCompletes
  intro s hI halone hbusy
  have hpos := hI.position hbusy
  obtain ⟨r, hr⟩ := Nat.exists_eq_add_of_lt hpos
  obtain ⟨t, ht, hdone⟩ := completed_steps hI halone hbusy (r := r) (by omega)
  rw [show traceLen s.mode - s.upc = r + 1 by omega]
  exact ⟨t, ht, hdone.mode, hdone.released, hdone.turns, hdone.apend, hdone.aborted, hdone.rdv, hdone.port⟩

/-! ### Completion releases the lines (R101) -/

theorem issueTurn_terminated {s t : State} {c : Word} (h : issueTurn c s = .next t) :
    t.terminated = s.terminated := by
  obtain ⟨-, rfl⟩ | ⟨-, rfl | ⟨_, _, _, rfl⟩ | ⟨_, _, rfl⟩⟩ := issueTurn_cases h <;> rfl

/-- A step that ends in IDLE is no termination of a busy block (R134). -/
theorem step_terminated {s t : State} (h : step s = .next t) (hbusy : s.mode ≠ .idle) (hidle : t.mode = .idle)
    (hs : s.terminated = false) : t.terminated = false := by
  obtain ⟨hw, x, l, -, hcase⟩ := step_cases h
  cases hcase with
  | stay => exact hs
  | sequencer _ hseq =>
    obtain ⟨-, rfl⟩ | ⟨u, i, -, -, -, rfl⟩ := sequencerTurn_cases (s := { s with turns := l }) hw hseq
    · exact hs
    · simpa using hs
  | issue c _ hissue => exact (issueTurn_terminated hissue).trans hs
  | abort => simpa using hs
  | abortIssue c _ hissue => exact (issueTurn_terminated hissue).trans (by simpa using hs)
  | reset => rfl
  | other r w _ => simpa using hs
  | terminate => exact absurd hidle hbusy

/-- Settles O32: the step keeps the invariant, which has an idle block's lines released. -/
theorem completionLeavesBothLinesReleased : Obligations.CompletionLeavesBothLinesReleased := by
  unfold Obligations.CompletionLeavesBothLinesReleased
  intro s t hI hs h hbusy hidle
  exact (everyStepKeepsTheInvariant s t hI h).idleReleased (step_terminated h hbusy hidle hs) hidle

/-! ### SAMPLE (R98) -/

/-- A SAMPLE of a trace is that of a data-in cell of a READ (R99). -/
theorem FrameUop.of_sample {c : Cmd} {m : Mode} {n : Nat} {l : Line} (h : FrameUop c m n (.sample l)) :
    m = .rd ∧ ∃ j, j < 16 ∧ n = 146 + 3 * j := by
  generalize hi : Instr.sample l = i at h
  cases h with
  | dataSample hm j hj => exact ⟨hm, j, hj, rfl⟩
  | bit k b => cases b <;> cases hi
  | _ => cases hi

/-- Settles O56: the samples stand in the data phase of a READ, which the host has left MDIO before (R99). -/
theorem sampleOnlyWhileMdioIsReleased : Obligations.SampleOnlyWhileMdioIsReleased := by
  unfold Obligations.SampleOnlyWhileMdioIsReleased
  intro s hI ht hu
  cases hm : s.mode with
  | idle => rw [State.nextUop, hm] at hu; cases hu
  | rst =>
    rw [State.nextUop, hm] at hu
    obtain ⟨-, h⟩ | ⟨-, h⟩ := releaseUop_cases hu <;> cases h
  | wr | rd =>
    have hmode : s.mode = .wr ∨ s.mode = .rd := by simp [hm]
    obtain ⟨c, hc⟩ := hI.cmd_some hmode
    obtain ⟨hrd, j, hj, hupc⟩ := (frameUop_of_nextUop hc hmode hu (decodeUop_smpL .mdio)).of_sample
    have hp := hI.lines ht c hc hmode (.inl (by rw [hrd, hupc]; simp only [traceLen]; omega))
    rw [hp.mdioDir, hrd, hupc]
    exact decide_eq_false (by omega)

end Sys2Proof.Machine
end

section
/-! SUPPORT. A WRITE or READ left to the sequencer, step by step: at every position its trace, the two lines and the
edges of MDC so far are known (R95, R97, R99). -/

namespace Sys2Proof.Machine

/-! ### Steps in a row -/

theorem stepN_succ_of_step {n : Nat} {s t : State} (h : step s = .next t) : stepN (n + 1) s = stepN n t := by
  rw [stepN, h]

theorem stepN_add {a b : Nat} {s t : State} (h : stepN a s = .next t) : stepN (a + b) s = stepN b t := by
  induction a generalizing s with
  | zero => cases h; rw [Nat.zero_add]
  | succ a ih =>
    cases hs : step s with
    | next s1 =>
      rw [stepN_succ_of_step hs] at h
      rw [Nat.succ_add, stepN_succ_of_step hs, ih h]
    | fault f => rw [stepN, hs] at h; cases h
    | refused r => rw [stepN, hs] at h; cases h

/-- One more step after `n`. -/
theorem stepN_step {n : Nat} {s t u : State} (h : stepN n s = .next t) (hstep : step t = .next u) :
    stepN (n + 1) s = .next u := by
  rw [stepN_add h, stepN_succ_of_step hstep]
  rfl

/-! ### One step inside a frame -/

/-- The sequencer, alone, takes the step of micro-op `i` from position `n` of the frame of `c`, the lines being as
the trace says before and after. -/
structure FrameStep (c : Cmd) (m : Mode) (n : Nat) (i : Instr) (s t : State) : Prop where
  frame : m = .wr ∨ m = .rd
  inside : n + 1 < traceLen m
  before : FrameAt c m n s
  uop : FrameUop c m n i
  result : t = finishUop s (uopResult i s)
  taken : step s = .next t
  linesBefore : LineProfile s c
  linesAfter : LineProfile t c

theorem FrameUop.isUop {c : Cmd} {m : Mode} {n : Nat} {i : Instr} (h : FrameUop c m n i) : Instr.isUop i = true := by
  cases h with
  | bit k b => cases b <;> rfl
  | _ => rfl

section
variable {c : Cmd} {m : Mode} {n : Nat} {s : State}

theorem FrameAt.step_uop (h : FrameAt c m n s) {u : BitVec 4} {i : Instr} (hu : trace m (some c) n = some u)
    (hi : decodeUop u = .ok i) : step s = .next (finishUop s (uopResult i s)) := by
  refine h.alone.step_uop ?_ hi
  rw [State.nextUop, h.mode, h.cmd, h.upc, hu]

theorem FrameAt.not_last (h : FrameAt c m n s) (hn : n + 1 < traceLen m) : s.upc + 1 ≠ traceLen s.mode := by
  rw [h.upc, h.mode]
  omega

theorem FrameAt.after (h : FrameAt c m n s) (hn : n + 1 < traceLen m) (i : Instr) :
    FrameAt c m (n + 1) (finishUop s (uopResult i s)) := by
  obtain ⟨hmode, hupc, -⟩ := uop_running i (h.not_last hn)
  exact ⟨h.alone.after_uop i, hmode.trans h.mode, by simp [h.cmd], by rw [hupc, h.upc]⟩

/-- What holds at the start of a frame and over each of its steps holds at each of its positions. -/
theorem FrameAt.run {Q : Nat → State → Prop} (hm : m = .wr ∨ m = .rd) (hc : m = .wr → c.wdata ≠ none)
    (h : FrameAt c m 0 s) (hlines : LineProfile s c) (hQ : Q 0 s)
    (hstep : ∀ n i s t, FrameStep c m n i s t → Q n s → Q (n + 1) t) (hn : n < traceLen m) :
    ∃ t, stepN n s = .next t ∧ FrameAt c m n t ∧ LineProfile t c ∧ Q n t := by
  induction n with
  | zero => exact ⟨s, rfl, h, hlines, hQ⟩
  | succ n ih =>
    obtain ⟨t, ht, hat, hp, hq⟩ := ih (Nat.lt_of_succ_lt hn)
    obtain ⟨u, i, hu, hi, hf⟩ := trace_some hm hc (Nat.lt_of_succ_lt hn)
    have hp' : LineProfile (finishUop t (uopResult i t)) c := by
      refine hp.after_uop hat.alone.params (by rwa [hat.mode]) ?_ (by rwa [hat.mode, hat.upc])
      rw [hat.mode, hat.upc]; exact hf
    have ht' := hat.step_uop hu hi
    exact ⟨_, stepN_step ht ht', hat.after hn i, hp', hstep n i t _ ⟨hm, hn, hat, hf, rfl, ht', hp, hp'⟩ hq⟩

/-! ### The lines by position -/

theorem FrameAt.drv_mdc (h : FrameAt c m n s) (hp : LineProfile s c) :
    s.drv .mdc = if 3 ≤ n then some (mdcHigh m n) else none := by
  obtain ⟨-, rfl, -, rfl⟩ := h
  by_cases h3 : 3 ≤ s.upc
  · rw [drv_output (hp.mdcDir.mpr h3), hp.mdcLatch (by omega), if_pos h3]
  · rw [drv_input (by simpa using mt hp.mdcDir.mp h3), if_neg h3]

theorem FrameAt.drv_mdio (h : FrameAt c m n s) (hp : LineProfile s c) :
    s.drv .mdio = if hostOwnsMdio m n then lastHostBit m c n else none := by
  obtain ⟨-, rfl, -, rfl⟩ := h
  have hdir := hp.mdioDir
  cases howns : hostOwnsMdio s.mode s.upc with
  | false => rw [drv_input (hdir.trans howns)]; rfl
  | true =>
    have h2 : 2 ≤ s.upc := by
      cases hm : s.mode <;> simp [hostOwnsMdio, hm] at howns <;> omega
    rw [drv_output (hdir.trans howns), if_pos rfl, hp.mdioLatch h2]
end

/-! ### The edges of MDC by position -/

/-- How many rising edges of MDC the frame has made before position `n` (R96, R100). -/
def riseCount (m : Mode) (n : Nat) : Nat :=
  match m with
  | .wr => (n - 3) / 3
  | .rd => if n ≤ 144 then (n - 3) / 3 else min ((n - 2) / 3) 63
  | .idle => 0
  | .rst => 0

theorem hostBit_rd_none {c : Cmd} {k : Nat} (hk : 46 ≤ k) : hostBit .rd c k = none := by
  simp only [hostBit, readBit]
  rw [if_neg (by omega), if_neg (by omega)]

/-- What the host drives on MDIO before and after the rising edge of a slot is the slot's bit, in a READ nothing from
slot 46 on (R97, R98). -/
theorem mdio_at_rise {m : Mode} (hm : m = .wr ∨ m = .rd) (c : Cmd) {n n' : Nat} (hn : n + 1 < traceLen m)
    (hlow : mdcHigh m n = false) (hhigh : mdcHigh m (n + 1) = true) (hn' : n' = n ∨ n' = n + 1) :
    (if hostOwnsMdio m n' then lastHostBit m c n' else none) = hostBit m c (riseCount m n) := by
  obtain rfl | rfl := hm
  · simp only [mdcHigh, decide_eq_true_eq, decide_eq_false_iff_not] at hlow hhigh
    have howns : hostOwnsMdio .wr n' = true := by simp only [hostOwnsMdio, decide_eq_true_eq]; omega
    rw [if_pos howns, lastHostBit_eq, if_neg (by omega)]
    congr 1
    simp only [lastBitSlot, riseCount]
    omega
  · simp only [mdcHigh, decide_eq_true_eq, decide_eq_false_iff_not] at hlow hhigh
    by_cases h142 : n ≤ 141
    · have howns : hostOwnsMdio .rd n' = true := by simp only [hostOwnsMdio, decide_eq_true_eq]; omega
      rw [if_pos howns, lastHostBit_eq, if_neg (by omega)]
      congr 1
      simp only [lastBitSlot, riseCount]
      rw [if_pos (by omega)]
      omega
    · have howns : hostOwnsMdio .rd n' = false := by simp only [hostOwnsMdio, decide_eq_false_iff_not]; omega
      rw [howns, hostBit_rd_none]
      · rfl
      · simp only [riseCount]
        split_ifs <;> omega

theorem riseCount_step {m : Mode} (hm : m = .wr ∨ m = .rd) {n : Nat} (hn : n + 1 < traceLen m) :
    riseCount m (n + 1) = riseCount m n + (if mdcHigh m n = false ∧ mdcHigh m (n + 1) = true then 1 else 0) := by
  rcases hm with rfl | rfl <;> simp only [traceLen] at hn <;>
    simp only [riseCount, mdcHigh, decide_eq_true_eq, decide_eq_false_iff_not] <;> split_ifs <;> omega

/-- What a step inside a frame shows of MDC. -/
inductive MdcCase (c : Cmd) (m : Mode) (n : Nat) (s t : State) : Prop
  | rise (events : lineEvents .mdc (s.drv .mdc) (t.drv .mdc) = [.rise])
      (before : s.drv .mdio = hostBit m c (riseCount m n)) (after : t.drv .mdio = hostBit m c (riseCount m n))
      (low : mdcHigh m n = false) (high : mdcHigh m (n + 1) = true)
      (count : riseCount m (n + 1) = riseCount m n + 1)
  | fall (events : lineEvents .mdc (s.drv .mdc) (t.drv .mdc) = [.fall])
      (high : mdcHigh m n = true) (low : mdcHigh m (n + 1) = false)
      (count : riseCount m (n + 1) = riseCount m n)
  | quiet (events : lineEvents .mdc (s.drv .mdc) (t.drv .mdc) = [] ∨
        ∃ b, lineEvents .mdc (s.drv .mdc) (t.drv .mdc) = [.take .mdc b])
      (same : mdcHigh m (n + 1) = mdcHigh m n) (count : riseCount m (n + 1) = riseCount m n)

section
variable {c : Cmd} {m : Mode} {n : Nat} {i : Instr} {s t : State}

theorem FrameStep.after (h : FrameStep c m n i s t) : FrameAt c m (n + 1) t := by
  rw [h.result]
  exact h.before.after h.inside i

theorem FrameStep.apend (h : FrameStep c m n i s t) : t.apend = s.apend := by
  rw [h.result]
  exact (uop_running i (h.before.not_last h.inside)).2.2

theorem mdcHigh_early (hm : m = .wr ∨ m = .rd) (hn : n < 4) : mdcHigh m n = false := by
  rcases hm with rfl | rfl <;> exact decide_eq_false (by omega)

/-- Each step inside a frame is a rising edge of MDC, a falling one, or none. -/
theorem FrameStep.mdcCase (h : FrameStep c m n i s t) : MdcCase c m n s t := by
  have hcount := riseCount_step h.frame h.inside
  have hbefore := h.before.drv_mdc h.linesBefore
  have hafter := h.after.drv_mdc h.linesAfter
  have hmdio := h.before.drv_mdio h.linesBefore
  have hmdio' := h.after.drv_mdio h.linesAfter
  by_cases h3 : 3 ≤ n
  · rw [if_pos h3] at hbefore
    rw [if_pos (Nat.le_succ_of_le h3)] at hafter
    cases hlow : mdcHigh m n <;> cases hhigh : mdcHigh m (n + 1) <;>
      simp only [hlow, hhigh] at hcount hbefore hafter
    · exact .quiet (.inl (by rw [hbefore, hafter]; rfl)) (hhigh.trans hlow.symm) (by simpa using hcount)
    · refine .rise (by rw [hbefore, hafter]; rfl) ?_ ?_ hlow hhigh (by simpa using hcount)
      · rw [hmdio, mdio_at_rise h.frame c h.inside hlow hhigh (.inl rfl)]
      · rw [hmdio', mdio_at_rise h.frame c h.inside hlow hhigh (.inr rfl)]
    · exact .fall (by rw [hbefore, hafter]; rfl) hlow hhigh (by simpa using hcount)
    · exact .quiet (.inl (by rw [hbefore, hafter]; rfl)) (hhigh.trans hlow.symm) (by simpa using hcount)
  · have hlow := mdcHigh_early h.frame (n := n) (by omega)
    have hlow' := mdcHigh_early h.frame (n := n + 1) (by omega)
    refine .quiet ?_ (hlow'.trans hlow.symm) (by simpa [hlow'] using hcount)
    rw [hbefore, if_neg h3]
    cases t.drv .mdc with
    | none => exact .inl rfl
    | some b => exact .inr ⟨b, rfl⟩

/-- The positions of a frame that hold a SAMPLE (R99). -/
def AtSample (m : Mode) (n : Nat) : Prop := m = .rd ∧ ∃ j, j < 16 ∧ n = 146 + 3 * j

/-- A micro-op of a WRITE is a line operation (R95). -/
theorem FrameUop.lineOp_of_write (h : FrameUop c .wr n i) :
    ∃ l, i = .driveLow l ∨ i = .driveHigh l ∨ i = .setInput l ∨ i = .setOutput l := by
  cases h with
  | turnaround hm | dataRise hm | dataSample hm | dataFall hm => cases hm
  | bit k b => exact ⟨.mdio, by cases b <;> simp [driveBit]⟩
  | mdcLow | takeMdc | rise | fall | releaseMdc => exact ⟨.mdc, by simp⟩
  | mdioHigh | takeMdio | releaseMdio => exact ⟨.mdio, by simp⟩

/-- A micro-op of a frame is the SAMPLE of a data-in cell or a line operation elsewhere. -/
theorem FrameUop.atSample_or_lineOp (h : FrameUop c m n i) (hm : m = .wr ∨ m = .rd) :
    AtSample m n ∧ i = .sample .mdio ∨
      ¬ AtSample m n ∧ ∃ l, i = .driveLow l ∨ i = .driveHigh l ∨ i = .setInput l ∨ i = .setOutput l := by
  rcases hm with rfl | rfl
  · exact .inr ⟨fun hpos => absurd hpos.1 (by decide), h.lineOp_of_write⟩
  · obtain ⟨hpos, hi⟩ | ⟨hpos, hi⟩ := h.sample_or_lineOp
    · exact .inl ⟨⟨rfl, hpos⟩, hi⟩
    · exact .inr ⟨fun h => hpos h.2, hi⟩

/-- A line operation records what the drives of both lines show. -/
theorem lineOp_hist_lines {l : Line}
    (hi : i = .driveLow l ∨ i = .driveHigh l ∨ i = .setInput l ∨ i = .setOutput l)
    (hw : s.params.wf = true) : (uopResult i s).hist = s.hist ++
      (lineEvents .mdc (s.drv .mdc) ((uopResult i s).drv .mdc) ++
        lineEvents .mdio (s.drv .mdio) ((uopResult i s).drv .mdio)) := by
  rw [lineOp_hist_events hi]
  cases l with
  | mdio => rw [lineOp_drv_other hi hw (l' := .mdc) (by decide), lineEvents_self .mdc, List.nil_append]
  | mdc => rw [lineOp_drv_other hi hw (l' := .mdio) (by decide), lineEvents_self .mdio, List.append_nil]

theorem sample_drv (l l' : Line) (s : State) : (uopResult (.sample l) s).drv l' = s.drv l' := by
  rw [State.drv, uopResult_sample_dirBit, uopResult_sample_outBit, State.drv]

/-- A step inside a frame records the events of the two lines and, in a data-in cell, its sample (R71, R86). -/
theorem FrameStep.hist (h : FrameStep c m n i s t) :
    ∃ es, t.hist = s.hist ++ (lineEvents .mdc (s.drv .mdc) (t.drv .mdc) ++
        lineEvents .mdio (s.drv .mdio) (t.drv .mdio) ++ es) ∧
      ((∃ b, es = [.sample b]) ∧ AtSample m n ∨ es = [] ∧ ¬ AtSample m n) := by
  rw [h.result]
  simp only [finishUop_hist, finishUop_drv]
  obtain ⟨hpos, hi⟩ | ⟨hpos, l, hi⟩ := h.uop.atSample_or_lineOp h.frame
  · rw [hi]
    obtain ⟨b, hb⟩ := sample_hist .mdio s
    exact ⟨_, by simp only [hb, sample_drv, lineEvents_self, List.nil_append], .inl ⟨⟨b, rfl⟩, hpos⟩⟩
  · exact ⟨[], by rw [lineOp_hist_lines hi h.before.alone.params, List.append_nil], .inr ⟨rfl, hpos⟩⟩
end

end Sys2Proof.Machine
end

section
/-! PROOFS. Whole frames on the wire (R95, R97, R99): the edges of MDC, what the host drives at them, the samples, and
what the last micro-op leaves. -/

namespace Sys2Proof.Machine

/-! ### Events in a row -/

/-- What the host drives on MDIO after a list of events, from `lvl` before them (R71). -/
def mdioLevel (lvl : Drive) : List LineEvent → Drive
  | [] => lvl
  | .drive b :: es => mdioLevel (some b) es
  | .take .mdio b :: es => mdioLevel (some b) es
  | .release .mdio :: es => mdioLevel none es
  | .take .mdc _ :: es => mdioLevel lvl es
  | .release .mdc :: es => mdioLevel lvl es
  | .rise :: es => mdioLevel lvl es
  | .fall :: es => mdioLevel lvl es
  | .sample _ :: es => mdioLevel lvl es

theorem mdcEdges_append (es fs : List LineEvent) : mdcEdges (es ++ fs) = mdcEdges es ++ mdcEdges fs := by
  induction es with
  | nil => rfl
  | cons e es ih => cases e <;> simp [mdcEdges, ih]

theorem mdioLevel_append (lvl : Drive) (es fs : List LineEvent) :
    mdioLevel lvl (es ++ fs) = mdioLevel (mdioLevel lvl es) fs := by
  induction es generalizing lvl with
  | nil => rfl
  | cons e es ih =>
    cases e with
    | take l b | release l => cases l <;> simp [mdioLevel, ih]
    | rise | fall | drive | sample => simp [mdioLevel, ih]

theorem driveAtRises_append (lvl : Drive) (es fs : List LineEvent) :
    driveAtRises lvl (es ++ fs) = driveAtRises lvl es ++ driveAtRises (mdioLevel lvl es) fs := by
  induction es generalizing lvl with
  | nil => rfl
  | cons e es ih =>
    cases e with
    | take l b | release l => cases l <;> simp [driveAtRises, mdioLevel, ih]
    | rise | fall | drive | sample => simp [driveAtRises, mdioLevel, ih]

/-- The events of MDIO are no edges of MDC, and lead from its drive before to its drive after. -/
theorem lineEvents_mdio (a b : Drive) :
    mdcEdges (lineEvents .mdio a b) = [] ∧ (∀ lvl, driveAtRises lvl (lineEvents .mdio a b) = []) ∧
      mdioLevel a (lineEvents .mdio a b) = b := by
  cases a with
  | none => cases b <;> exact ⟨rfl, fun _ => rfl, rfl⟩
  | some x =>
    cases b with
    | none => exact ⟨rfl, fun _ => rfl, rfl⟩
    | some y => cases x <;> cases y <;> exact ⟨rfl, fun _ => rfl, rfl⟩

theorem pulses_succ (n : Nat) : pulses (n + 1) = pulses n ++ [.rise, .fall] := by
  induction n with
  | zero => rfl
  | succ n ih => exact congrArg (fun es => LineEvent.rise :: .fall :: es) ih

/-! ### The record of a frame, by position -/

/-- How many samples the frame has taken before position `n` (R99). -/
def sampleCount : Mode → Nat → Nat
  | .rd, n => dataBitsDone .rd n
  | .wr, _ => 0
  | .idle, _ => 0
  | .rst, _ => 0

theorem sampleCount_atSample {m : Mode} {n : Nat} (h : AtSample m n) : sampleCount m (n + 1) = sampleCount m n + 1 := by
  obtain ⟨rfl, j, hj, rfl⟩ := h
  exact dataBitsDone_rd_sample hj

theorem sampleCount_other {m : Mode} {n : Nat} (h : ¬ AtSample m n) : sampleCount m (n + 1) = sampleCount m n := by
  cases m with
  | rd => exact dataBitsDone_rd_other fun hpos => h ⟨rfl, hpos⟩
  | wr | idle | rst => rfl

/-- The events `es` of the frame of `c` up to position `n`: its pulses, the last one perhaps not ended, with the
bits of the slots at the rising edges (R97). -/
structure WireLog (c : Cmd) (m : Mode) (n : Nat) (drive : Drive) (es : List LineEvent) : Prop where
  edges : mdcEdges es ++ (if mdcHigh m n then [.fall] else []) = pulses (riseCount m n)
  rises : driveAtRises none es = (List.range (riseCount m n)).map (hostBit m c)
  level : mdioLevel none es = drive
  samples : (sampledBits es).length = sampleCount m n

theorem wireLog_start {m : Mode} (hm : m = .wr ∨ m = .rd) (c : Cmd) : WireLog c m 0 none [] := by
  rcases hm with rfl | rfl <;> exact ⟨rfl, rfl, rfl, rfl⟩

section
variable {c : Cmd} {m : Mode} {n : Nat} {s t : State} {es : List LineEvent}

/-- What the events of MDC add to the record. -/
theorem WireLog.add_mdc (h : WireLog c m n (s.drv .mdio) es) (hcase : MdcCase c m n s t) {ev : List LineEvent}
    (hev : lineEvents .mdc (s.drv .mdc) (t.drv .mdc) = ev) :
    mdcEdges (es ++ ev) ++ (if mdcHigh m (n + 1) then [.fall] else []) = pulses (riseCount m (n + 1)) ∧
      driveAtRises none (es ++ ev) = (List.range (riseCount m (n + 1))).map (hostBit m c) ∧
      mdioLevel none (es ++ ev) = s.drv .mdio := by
  obtain ⟨hedges, hrises, hlevel, -⟩ := h
  rw [mdcEdges_append, driveAtRises_append, mdioLevel_append, hrises, hlevel]
  cases hcase with
  | rise events before after low high count =>
    cases hev.symm.trans events
    rw [low] at hedges
    rw [high, count, pulses_succ, ← hedges, List.range_succ, List.map_append, before]
    exact ⟨by simp [mdcEdges], rfl, rfl⟩
  | fall events high low count =>
    cases hev.symm.trans events
    rw [high] at hedges
    rw [low, count, ← hedges]
    exact ⟨by simp [mdcEdges], by simp [driveAtRises], rfl⟩
  | quiet events same count =>
    rw [same, count, ← hedges]
    obtain events | ⟨b, events⟩ := events <;> cases hev.symm.trans events <;>
      exact ⟨by simp [mdcEdges], by simp [driveAtRises], rfl⟩

/-- A step inside a frame adds to the record what stands at its position. -/
theorem WireLog.step {i : Instr} (h : WireLog c m n (s.drv .mdio) es) (hstep : FrameStep c m n i s t) :
    ∃ fs, t.hist = s.hist ++ fs ∧ WireLog c m (n + 1) (t.drv .mdio) (es ++ fs) := by
  obtain ⟨smp, hhist, hsmp⟩ := hstep.hist
  obtain ⟨hedges, hrises, hlevel⟩ := h.add_mdc hstep.mdcCase rfl
  obtain ⟨hnoEdge, hnoRise, hnext⟩ := lineEvents_mdio (s.drv .mdio) (t.drv .mdio)
  have hquiet : mdcEdges smp = [] ∧ (∀ lvl, driveAtRises lvl smp = []) ∧ ∀ lvl, mdioLevel lvl smp = lvl := by
    obtain ⟨⟨b, rfl⟩, -⟩ | ⟨rfl, -⟩ := hsmp <;> exact ⟨rfl, fun _ => rfl, fun _ => rfl⟩
  obtain ⟨hsmpEdge, hsmpRise, hsmpLevel⟩ := hquiet
  refine ⟨_, hhist, ?_, ?_, ?_, ?_⟩
  · rw [← hedges]
    simp only [mdcEdges_append, hnoEdge, hsmpEdge, List.append_nil]
  · rw [← hrises, ← List.append_assoc, ← List.append_assoc, driveAtRises_append, driveAtRises_append, hnoRise,
      hsmpRise, List.append_nil, List.append_nil]
  · rw [← List.append_assoc, ← List.append_assoc, mdioLevel_append, mdioLevel_append, hlevel, hnext, hsmpLevel]
  · rw [sampledBits_append, sampledBits_append, sampledBits_append, sampledBits_lineEvents, sampledBits_lineEvents,
      List.nil_append, List.length_append, h.samples]
    obtain ⟨⟨b, rfl⟩, hpos⟩ | ⟨rfl, hpos⟩ := hsmp
    · exact (sampleCount_atSample hpos).symm
    · exact (sampleCount_other hpos).symm
end

/-! ### The last micro-op of a frame -/

/-- What the last micro-op, SETIN MDC, leaves of `s` (R87, R102). -/
def lastStep (s : State) : State := finishUop s (uopResult (.setInput .mdc) s)

section
variable {c : Cmd} {m : Mode} {s : State} (hm : m = .wr ∨ m = .rd) (h : FrameAt c m (traceLen m - 1) s)
include hm h

theorem FrameAt.step_last : step s = .next (lastStep s) := by
  refine h.step_uop ?_ (decodeUop_setIn .mdc)
  exact trace_last (by rcases hm with rfl | rfl <;> decide) (.inr nofun)

theorem FrameAt.last_position (i : Instr) : (uopResult i s).upc + 1 = traceLen (uopResult i s).mode := by
  rw [uopResult_upc, uopResult_mode, h.upc, h.mode]
  rcases hm with rfl | rfl <;> rfl

theorem lastStep_mode : (lastStep s).mode = .idle := finishUop_last_mode (h.last_position hm _)

/-- The lines after the last micro-op: released, the last bit and 0 in the latches (R27, R101). -/
theorem lastStep_lines (hp : LineProfile s c) : (lastStep s).released ∧ (lastStep s).outBit .mdc = false ∧
    hostBit m c (lastBitSlot m) = some ((lastStep s).outBit .mdio) := by
  have hw := h.alone.params
  obtain ⟨-, rfl, -, hupc⟩ := h
  have hmdio := hp.mdioDir
  have hlatch := hp.mdcLatch
  have hbit := hp.mdioLatch
  rw [hupc] at hmdio hlatch hbit
  simp only [State.released, lastStep, finishUop_dirBit, finishUop_outBit, uopResult_dirBit hw, uopResult_outBit hw,
    Instr.dirAfter, Instr.outAfter, hmdio]
  rcases hm with hm | hm <;> rw [hm] at hlatch hbit ⊢
  · exact ⟨⟨by decide, by simp⟩, hlatch (by decide), hbit (by decide)⟩
  · exact ⟨⟨by decide, by simp⟩, hlatch (by decide), hbit (by decide)⟩

theorem lastStep_hist (hp : LineProfile s c) : (lastStep s).hist = s.hist ++ [.release .mdc] := by
  rw [lastStep, finishUop_hist, lineOp_hist_events (.inr (.inr (.inl rfl))), setInput_drv h.alone.params,
    h.drv_mdc hp, if_pos (by rcases hm with rfl | rfl <;> decide)]
  rfl
end

theorem lastStep_sr (s : State) : (lastStep s).sr = s.sr := by
  rw [lastStep, finishUop_sr]
  exact (direction_out_sr (l := .mdc) (.inl rfl)).2

theorem lastStep_port (s : State) : (lastStep s).port.length = s.port.length + 1 := by
  rw [lastStep, finishUop_port, uopResult_port_length rfl]

theorem FrameStep.port {c : Cmd} {m : Mode} {n : Nat} {i : Instr} {s t : State} (h : FrameStep c m n i s t) :
    t.port.length = s.port.length + 1 := by
  rw [h.result, finishUop_port, uopResult_port_length h.uop.isUop]

/-! ### A whole frame -/

/-- What a whole frame leaves of `s`, from the state `t` before its last micro-op (R97, R101). -/
structure WholeFrame (c : Cmd) (m : Mode) (s t : State) (es : List LineEvent) : Prop where
  steps : stepN (traceLen m) s = .next (lastStep t)
  before : FrameAt c m (traceLen m - 1) t
  mode : (lastStep t).mode = .idle
  hist : (lastStep t).hist = s.hist ++ es
  edges : mdcEdges es = pulses (riseCount m (traceLen m - 1))
  rises : driveAtRises none es = (List.range (riseCount m (traceLen m - 1))).map (hostBit m c)
  samples : (sampledBits es).length = sampleCount m (traceLen m - 1)
  released : (lastStep t).released
  mdcLatch : (lastStep t).outBit .mdc = false
  mdioLatch : hostBit m c (lastBitSlot m) = some ((lastStep t).outBit .mdio)
  port : (lastStep t).port.length = s.port.length + traceLen m

/-- A frame left to the sequencer from its accept, with whatever else holds over its steps. -/
theorem wholeFrame {c : Cmd} {m : Mode} {s : State} (hm : m = .wr ∨ m = .rd) (hc : m = .wr → c.wdata ≠ none)
    (h : FrameAt c m 0 s) (hr : s.released) {Q : Nat → State → Prop} (hQ : Q 0 s)
    (hstep : ∀ n i s t, FrameStep c m n i s t → Q n s → Q (n + 1) t) :
    ∃ t es, WholeFrame c m s t es ∧ Q (traceLen m - 1) t := by
  have hlen : traceLen m - 1 + 1 = traceLen m := by rcases hm with rfl | rfl <;> rfl
  have hlines : LineProfile s c := lineProfile_of_released c (by rwa [h.mode]) h.upc hr
  obtain ⟨t, ht, hat, hp, ⟨es, hhist, hlog⟩, hport, hq⟩ :=
    h.run (Q := fun n t => (∃ es, t.hist = s.hist ++ es ∧ WireLog c m n (t.drv .mdio) es) ∧
      t.port.length = s.port.length + n ∧ Q n t) hm hc hlines
      ⟨⟨[], by simp, by rw [drv_input hr.1]; exact wireLog_start hm c⟩, rfl, hQ⟩
      (fun n i s' t' hs ⟨⟨es, hhist, hlog⟩, hport, hq⟩ => by
        obtain ⟨fs, hfs, hlog'⟩ := hlog.step hs
        exact ⟨⟨es ++ fs, by rw [hfs, hhist, List.append_assoc], hlog'⟩, by rw [hs.port, hport]; rfl,
          hstep n i s' t' hs hq⟩)
      (Nat.lt_of_succ_le (Nat.le_of_eq hlen))
  obtain ⟨hrel, hmdc, hmdio⟩ := lastStep_lines hm hat hp
  refine ⟨t, es ++ [.release .mdc], ⟨?_, hat, lastStep_mode hm hat, ?_, ?_, ?_, ?_, hrel, hmdc, hmdio, ?_⟩, hq⟩
  · rw [← hlen]; exact stepN_step ht (hat.step_last hm)
  · rw [lastStep_hist hm hat hp, hhist, List.append_assoc]
  · have hlow : mdcHigh m (traceLen m - 1) = false := by rcases hm with rfl | rfl <;> decide
    have hedges := hlog.edges
    rw [hlow] at hedges
    rw [mdcEdges_append, ← hedges]
    rfl
  · rw [driveAtRises_append, hlog.rises]; exact List.append_nil _
  · rw [sampledBits_append, ← hlog.samples]; exact congrArg List.length (List.append_nil _)
  · rw [lastStep_port, hport, Nat.add_assoc, hlen]

end Sys2Proof.Machine
end

section
/-! PROOFS. The two frames on the wire: 64 slots of a WRITE, 63 of a READ with its sixteen samples (R95, R97, R99). -/

namespace Sys2Proof.Machine

/-! ### The bits of a frame as a list -/

theorem bitsMsbFirst_eq_map (n v : Nat) : bitsMsbFirst n v = (List.range n).map fun j => v.testBit (n - 1 - j) := by
  induction n with
  | zero => rfl
  | succ n ih =>
    rw [bitsMsbFirst, ih, List.range_succ_eq_map, List.map_cons, List.map_map]
    refine congrArg₂ List.cons (by simp) (List.map_congr_left fun j hj => ?_)
    simp only [Function.comp_apply, Nat.succ_eq_add_one]
    congr 1
    omega

/-- The preamble and `n` bits after it, where the bits are those of `v` (R55, R56). -/
theorem hostBits_eq {m : Mode} (hm : m = .wr ∨ m = .rd) (c : Cmd) {n v : Nat}
    (hbits : ∀ j, j < n → hostBit m c (32 + j) = some (v.testBit (n - 1 - j))) :
    (List.range (32 + n)).map (hostBit m c) = (List.replicate 32 true ++ bitsMsbFirst n v).map some := by
  rw [List.range_add, List.map_append, List.map_append, List.map_map, bitsMsbFirst_eq_map, List.map_map]
  congr 1
  · rw [List.map_replicate, List.eq_replicate_iff]
    refine ⟨by simp, fun b hb => ?_⟩
    obtain ⟨k, hk, rfl⟩ := List.mem_map.mp hb
    exact hostBit_preamble hm c (List.mem_range.mp hk)
  · exact List.map_congr_left fun j hj => hbits j (List.mem_range.mp hj)

/-! ### A WRITE (R95) -/

/-- SR over a WRITE: the data shifted by the bits driven (R85). -/
theorem FrameStep.write_sr {c : Cmd} {n : Nat} {i : Instr} {s t : State} {d : Half} (h : FrameStep c .wr n i s t)
    (hsr : s.sr = some (d <<< dataBitsDone .wr n)) : t.sr = some (d <<< dataBitsDone .wr (n + 1)) := by
  obtain ⟨-, hm, -, hupc⟩ := h.before
  have huop := h.uop
  rw [h.result, finishUop_sr]
  rw [← hupc] at hsr huop ⊢
  by_cases hn : s.upc + 1 < 196
  · exact writeShifter_step hm huop hn hsr
  · have hlt := h.inside
    simp only [traceLen] at hlt
    have hcount : dataBitsDone .wr (s.upc + 1) = dataBitsDone .wr s.upc := by simp only [dataBitsDone]; omega
    rw [hcount, ← hsr]
    refine uopResult_sr_quiet i ?_ (by simp [State.atDataIn, hm])
    simp only [State.atDataOut, decide_eq_false_iff_not]
    omega

/-- Settles O58: the record of a whole frame, with the bits of the slots read off the command word. -/
theorem writeFrameOnTheWire : Obligations.WriteFrameOnTheWire := by
  unfold Obligations.WriteFrameOnTheWire
  intro s pa ra d c halone hm hupc hcmd hsr _ hrel hc
  cases (encode_write pa ra d).symm.trans hc
  obtain ⟨t, es, hf, hsr'⟩ := wholeFrame (m := .wr) (c := ⟨opWrite, pa, ra, some d⟩) (.inl rfl) (fun _ => nofun)
    ⟨halone, hm, hcmd, hupc⟩ hrel (Q := fun n t => t.sr = some (d <<< dataBitsDone .wr n))
    (by simpa [dataBitsDone] using hsr) (fun n i s t hs => hs.write_sr)
  refine ⟨lastStep t, es, hf.steps, hf.mode, hf.hist, hf.edges, hf.rises.trans ?_,
    List.length_eq_zero_iff.mp hf.samples, hf.released, ?_, hf.mdcLatch, ?_, hf.port⟩
  · refine hostBits_eq (n := 32) (.inl rfl) _ fun j hj => ?_
    rw [hostBit_write pa ra d (by omega) (by omega), BitVec.getLsbD, show 63 - (32 + j) = 32 - 1 - j by omega]
  · have hlast : hostBit .wr ⟨opWrite, pa, ra, some d⟩ 63 = some (d.getLsbD 0) := rfl
    exact Option.some.inj (hf.mdioLatch.symm.trans hlast)
  · rw [lastStep_sr, hsr']
    exact congrArg some (BitVec.shiftLeft_eq_zero (Nat.le_refl 16))

/-! ### A READ (R99) -/

/-- Settles O59: the record of a whole frame; SR holds the samples taken (R86), and completion moves it to RDATA. -/
theorem readFrameOnTheWire : Obligations.ReadFrameOnTheWire := by
  unfold Obligations.ReadFrameOnTheWire
  intro s pa ra h halone hm hupc hcmd hsr hapend hrel hh
  have hhdr : header ⟨opRead, pa, ra, none⟩ = h :=
    ((headerIsTheCommandsUpperBits.1 pa ra none).2).trans hh.symm
  obtain ⟨t, es, hf, hok, ha⟩ := wholeFrame (m := .rd) (c := ⟨opRead, pa, ra, none⟩) (.inr rfl) nofun
    ⟨halone, hm, hcmd, hupc⟩ hrel (Q := fun _ t => ReadShifterOk t ∧ t.apend = false)
    ⟨fun _ _ => ⟨[], sampledBits s.hist, by simp, by rw [hupc]; rfl, hsr⟩, hapend⟩
    (fun n i s t hs ⟨hok, ha⟩ => ⟨everyStepKeepsTheReadShifter s t hok hs.taken, hs.apend.trans ha⟩)
  obtain ⟨u, older, taken, hu, hidle, hrdv, hhist, hlen, hrdata⟩ :=
    completedReadReturnsItsSamples t t ⟨hf.before.alone.params, .inl ⟨hf.before.alone.turns, rfl⟩⟩
      hf.before.alone.mapped hok hf.before.mode hf.before.upc (by rw [hf.before.cmd]; nofun) ha
  cases hu.symm.trans (hf.before.step_last (.inr rfl))
  have htaken : sampledBits es = taken := by
    rw [hf.hist, sampledBits_append] at hhist
    exact List.append_inj_right' hhist (hf.samples.trans hlen.symm)
  refine ⟨lastStep t, es, hf.steps, hidle, hf.hist, hf.edges, hf.rises.trans ?_, hf.samples, htaken ▸ hrdata, hrdv,
    hf.released, ?_, hf.mdcLatch, hf.port⟩
  · have hbits := hostBits_eq (m := .rd) (n := 14) (v := h.toNat) (.inr rfl) ⟨opRead, pa, ra, none⟩ fun j hj => by
      obtain ⟨-, hbit⟩ := frameBits_header ⟨opRead, pa, ra, none⟩ (k := 32 + j) (by omega) (by omega)
      rw [hhdr, BitVec.getLsbD, show 45 - (32 + j) = 14 - 1 - j by omega] at hbit
      exact hbit
    change (List.range (32 + 14 + 17)).map _ = _
    rw [List.range_add, List.map_append, hbits]
    rfl
  · have hlast : hostBit .rd ⟨opRead, pa, ra, none⟩ 45 = some (ra.getLsbD 0) :=
      congrArg some (BitVec.getLsbD_append (x := 0b01#2 ++ opRead ++ pa) (y := ra) (i := 0))
    exact Option.some.inj (hf.mdioLatch.symm.trans hlast)

end Sys2Proof.Machine
end

section
/-! SUPPORT. The reference device through a frame (R104): its state after the rising edge of each slot, from the
command word that the frame carries. -/

namespace Sys2Proof.Machine

/-! ### Bits, MSB first -/

theorem bitsMsbFirst_length (n v : Nat) : (bitsMsbFirst n v).length = n := by
  rw [bitsMsbFirst_eq_map, List.length_map, List.length_range]

theorem bitsMsbFirst_add (a b v : Nat) : bitsMsbFirst (a + b) v = bitsMsbFirst a (v >>> b) ++ bitsMsbFirst b v := by
  induction a with
  | zero => rw [Nat.zero_add]; rfl
  | succ a ih => rw [Nat.succ_add, bitsMsbFirst, ih, bitsMsbFirst, Nat.testBit_shiftRight, Nat.add_comm b a]; rfl

theorem bitsMsbFirst_concat (n k v : Nat) :
    bitsMsbFirst (n + 1) (v >>> k) = bitsMsbFirst n (v >>> (k + 1)) ++ [v.testBit k] := by
  rw [bitsMsbFirst_add, ← Nat.shiftRight_add]
  simp [bitsMsbFirst]

theorem bitsMsbFirst_drop (a b v : Nat) : (bitsMsbFirst (a + b) v).drop a = bitsMsbFirst b v := by
  rw [bitsMsbFirst_add, List.drop_left' (bitsMsbFirst_length a _)]

theorem bitsMsbFirst_take (a b v : Nat) : (bitsMsbFirst (a + b) v).take a = bitsMsbFirst a (v >>> b) := by
  rw [bitsMsbFirst_add, List.take_left' (bitsMsbFirst_length a _)]

/-- A number's bits, MSB first, are the number again (R39). -/
theorem msbFirst_bitsMsbFirst (n v : Nat) : msbFirst (bitsMsbFirst n v) = v % 2 ^ n := by
  induction n generalizing v with
  | zero => rw [Nat.pow_zero, Nat.mod_one]; rfl
  | succ n ih =>
    have h := bitsMsbFirst_concat n 0 v
    rw [Nat.shiftRight_zero] at h
    rw [h, msbFirst_concat, ih, Nat.testBit_zero, Nat.pow_succ', Nat.mod_mul, Nat.shiftRight_eq_div_pow]
    rcases Nat.mod_two_eq_zero_or_one v with hv | hv <;> simp [hv, Nat.add_comm]

/-- The bits of a field, read MSB first, are the field (R53). -/
theorem ofNat_msbFirst_field (w : Word) (start len : Nat) :
    BitVec.ofNat len (msbFirst (bitsMsbFirst len (w.toNat >>> start))) = w.extractLsb' start len := by
  rw [msbFirst_bitsMsbFirst]
  apply BitVec.eq_of_toNat_eq
  simp

/-! ### The device in a frame -/

namespace RefDevice
variable (d : RefDevice) (w : Word)

/-- After `j` ones of the preamble. -/
def preamble (j : Nat) : RefDevice := { d with ones := d.ones + j }

/-- After the first START bit and `j` of the 13 header bits that follow it. -/
def inHeader (j : Nat) : RefDevice :=
  { d with
    ones := d.ones + 32, phase := .framing, pos := 1 + j, buffer := bitsMsbFirst j (w.toNat >>> (31 - j)) }

/-- After the header of a WRITE and `j` of the 18 bits that follow it. -/
def inWriteTail (j : Nat) : RefDevice :=
  { d with
    ones := d.ones + 32, phase := .writeTail (cmdPa w) (cmdRa w), pos := 14 + j
    buffer := bitsMsbFirst j (w.toNat >>> (18 - j)) }

/-- After a WRITE to an address the device holds. -/
def afterWrite : RefDevice :=
  { d with regs := regPut d.regs (regKey (cmdPa w) (cmdRa w)) (cmdData w) }.hunt

/-- After the header of a READ of an address the device holds and `j` rising edges more: from slot 47 on it drives
the register, MSB first. -/
def inReadTail (j : Nat) : RefDevice :=
  { d with
    ones := d.ones + 32, phase := .readTail (cmdPa w) (cmdRa w), pos := 14 + j, buffer := []
    drive := if j ≤ 1 then none else some ((regGet d.regs (regKey (cmdPa w) (cmdRa w))).getLsbD (17 - j)) }

/-! ### One rising edge -/

variable {d w}

theorem preamble_rise (hp : d.phase = .hunting) (j : Nat) : (d.preamble j).rise true = d.preamble (j + 1) := by
  simp only [rise, preamble, hp]
  rfl

theorem preamble_start (hp : d.phase = .hunting) (w : Word) : (d.preamble 32).rise false = d.inHeader w 0 := by
  simp only [rise, preamble, hp, inHeader, Nat.le_add_left, if_true]
  rfl

/-- The word's bits that a buffer holds grow by the next bit. -/
theorem buffer_concat (j k : Nat) (hk : j < k) :
    bitsMsbFirst j (w.toNat >>> (k - j)) ++ [w.getLsbD (k - (j + 1))] =
      bitsMsbFirst (j + 1) (w.toNat >>> (k - (j + 1))) := by
  rw [bitsMsbFirst_concat, show k - (j + 1) + 1 = k - j by omega]
  rfl

theorem inHeader_rise {j : Nat} (hj : j < 12) :
    (d.inHeader w j).rise (w.getLsbD (30 - j)) = d.inHeader w (j + 1) := by
  have hbuf := buffer_concat (w := w) j 31 (by omega)
  rw [show 31 - (j + 1) = 30 - j by omega] at hbuf
  simp only [rise, inHeader, hbuf, bitsMsbFirst_length]
  rw [if_neg (by omega), show 31 - (j + 1) = 30 - j by omega]
  rfl

theorem inWriteTail_rise {j : Nat} (hj : j < 17) :
    (d.inWriteTail w j).rise (w.getLsbD (17 - j)) = d.inWriteTail w (j + 1) := by
  have hbuf := buffer_concat (w := w) j 18 (by omega)
  rw [show 18 - (j + 1) = 17 - j by omega] at hbuf
  simp only [rise, inWriteTail, hbuf, bitsMsbFirst_length]
  rw [if_neg (by omega), show 18 - (j + 1) = 17 - j by omega]
  rfl

/-- The last data bit of a WRITE stores the word's data (R104). -/
theorem inWriteTail_end (hpa : cmdPa w ∈ d.present) :
    (d.inWriteTail w 17).rise (w.getLsbD 0) = d.afterWrite w := by
  have hbuf := buffer_concat (w := w) 17 18 (by omega)
  have hdata : BitVec.ofNat 16 (msbFirst ((bitsMsbFirst 18 (w.toNat >>> 0)).drop 2)) = cmdData w := by
    rw [bitsMsbFirst_drop 2 16]; exact ofNat_msbFirst_field w 0 16
  simp only [Nat.reduceAdd, Nat.reduceSub] at hbuf
  simp only [rise, inWriteTail, Nat.reduceSub, hbuf, bitsMsbFirst_length, if_true, hpa, hdata, afterWrite]
  rfl

/-- The register written reads as the word's data. -/
theorem regGet_afterWrite (hregs : RegFile.wf d.regs = true) (w : Word) :
    regGet (d.afterWrite w).regs (regKey (cmdPa w) (cmdRa w)) = cmdData w := by
  simp only [afterWrite, hunt]
  rw [regGet_put hregs, if_pos rfl]

theorem inReadTail_rise (hpa : cmdPa w ∈ d.present) {j : Nat} (hj : j < 17) (v : Bool) :
    (d.inReadTail w j).rise v = d.inReadTail w (j + 1) := by
  obtain rfl | h : j = 0 ∨ 1 ≤ j := by omega
  · rfl
  · have hturn : 14 + j + 32 ≠ 46 := by omega
    have hdata : 47 ≤ 14 + j + 32 ∧ 14 + j + 32 ≤ 62 ∧ cmdPa w ∈ d.present := ⟨by omega, by omega, hpa⟩
    have hlate : ¬ j + 1 ≤ 1 := by omega
    have hbit : 62 - (14 + j + 32) = 17 - (j + 1) := by omega
    simp only [rise, inReadTail, if_neg hturn, if_pos hdata, if_neg hlate, hbit]
    rfl

/-! ### The end of the header -/

theorem inHeader_end : (d.inHeader w 12).rise (w.getLsbD 18) =
    ({ d with ones := d.ones + 32, phase := .framing, pos := 14, buffer := bitsMsbFirst 13 (w.toNat >>> 18) } :
      RefDevice).header (bitsMsbFirst 13 (w.toNat >>> 18)) := by
  have hbuf := buffer_concat (w := w) 12 31 (by omega)
  simp only [Nat.reduceAdd, Nat.reduceSub] at hbuf
  simp only [rise, inHeader, Nat.reduceSub, hbuf, bitsMsbFirst_length, if_true, Nat.reduceAdd]

/-- What the device reads of a header: ST[0], OP, PA and RA of the command word (R104). -/
theorem header_fields : (bitsMsbFirst 13 (w.toNat >>> 18)).head? = some (w.getLsbD 30) ∧
    msbFirst (((bitsMsbFirst 13 (w.toNat >>> 18)).drop 1).take 2) = (cmdOp w).toNat ∧
    BitVec.ofNat 5 (msbFirst (((bitsMsbFirst 13 (w.toNat >>> 18)).drop 3).take 5)) = cmdPa w ∧
    BitVec.ofNat 5 (msbFirst (((bitsMsbFirst 13 (w.toNat >>> 18)).drop 8).take 5)) = cmdRa w := by
  refine ⟨?_, ?_, ?_, ?_⟩
  · rw [bitsMsbFirst, List.head?_cons, Nat.testBit_shiftRight]
    rfl
  · rw [bitsMsbFirst_drop 1 12, bitsMsbFirst_take 2 10, msbFirst_bitsMsbFirst, ← Nat.shiftRight_add, cmdOp,
      BitVec.extractLsb'_toNat]
  · rw [bitsMsbFirst_drop 3 10, bitsMsbFirst_take 5 5, ← Nat.shiftRight_add]
    exact ofNat_msbFirst_field w 23 5
  · rw [bitsMsbFirst_drop 8 5, bitsMsbFirst_take 5 0, Nat.shiftRight_zero]
    exact ofNat_msbFirst_field w 18 5

/-- The bits of ST in a legal command word (R53). -/
theorem start_bits (h : cmdSt w = 0b01#2) : w.getLsbD 31 = false ∧ w.getLsbD 30 = true := by
  have hbit : ∀ k, k < 2 → (cmdSt w).getLsbD k = w.getLsbD (30 + k) := fun k hk => by
    rw [cmdSt, BitVec.getLsbD_extractLsb', decide_eq_true hk, Bool.true_and]
  rw [h] at hbit
  exact ⟨(hbit 1 (by decide)).symm, (hbit 0 (by decide)).symm⟩

theorem inHeader_write (h : WriteFields w) : (d.inHeader w 12).rise (w.getLsbD 18) = d.inWriteTail w 0 := by
  obtain ⟨hst, hop, -⟩ := h
  obtain ⟨hhead, hop', hpa, hra⟩ := header_fields (w := w)
  rw [(start_bits hst).2] at hhead
  rw [hop] at hop'
  simp only [inHeader_end, header, hhead, hop', hpa, hra]
  rfl

theorem inHeader_read (hd : d.drive = none) (h : ReadFields w) :
    (d.inHeader w 12).rise (w.getLsbD 18) = d.inReadTail w 0 := by
  obtain ⟨hst, hop⟩ := h
  obtain ⟨hhead, hop', hpa, hra⟩ := header_fields (w := w)
  rw [(start_bits hst).2] at hhead
  rw [hop] at hop'
  simp only [inHeader_end, header, hhead, hop', hpa, hra, hd]
  rfl

/-! ### The device by slot -/

/-- What stands on MDIO at the rising edge of slot `k` of a frame, while the host drives it (R55, R56). -/
def slotLevel (w : Word) (k : Nat) : Bool := decide (k < 32) || w.getLsbD (63 - k)

variable (d w)

/-- The device after the rising edges of `r` slots of a WRITE. -/
def inWrite (r : Nat) : RefDevice :=
  if r ≤ 32 then d.preamble r else if r ≤ 45 then d.inHeader w (r - 33)
  else if r ≤ 63 then d.inWriteTail w (r - 46) else d.afterWrite w

/-- The device after the rising edges of `r` slots of a READ, `r` at most 63. -/
def inRead (r : Nat) : RefDevice :=
  if r ≤ 32 then d.preamble r else if r ≤ 45 then d.inHeader w (r - 33) else d.inReadTail w (r - 46)

variable {d w}

/-- Slots 0 to 44, the same in both frames. -/
theorem early_rise (hp : d.phase = .hunting) (hst : cmdSt w = 0b01#2) {r : Nat} (hr : r < 45) :
    (if r ≤ 32 then d.preamble r else d.inHeader w (r - 33)).rise (slotLevel w r) =
      if r + 1 ≤ 32 then d.preamble (r + 1) else d.inHeader w (r + 1 - 33) := by
  obtain h | rfl | h : r < 32 ∨ r = 32 ∨ 32 < r := by omega
  · rw [if_pos (by omega), if_pos (by omega), slotLevel, decide_eq_true h, Bool.true_or, preamble_rise hp]
  · simp only [slotLevel, Nat.reduceSub, Nat.reduceAdd, Nat.reduceLeDiff, if_true, if_false, (start_bits hst).1,
      Nat.lt_irrefl, decide_false, Bool.or_false, preamble_start hp w]
  · rw [if_neg (by omega), if_neg (by omega), slotLevel, decide_eq_false (by omega), Bool.false_or,
      show 63 - r = 30 - (r - 33) by omega, inHeader_rise (by omega), show r - 33 + 1 = r + 1 - 33 by omega]

theorem inWrite_rise (hp : d.phase = .hunting) (hw : WriteFields w) (hpa : cmdPa w ∈ d.present) {r : Nat}
    (hr : r < 64) : (d.inWrite w r).rise (slotLevel w r) = d.inWrite w (r + 1) := by
  obtain h | rfl | h | rfl : r < 45 ∨ r = 45 ∨ 45 < r ∧ r < 63 ∨ r = 63 := by omega
  · have h' := early_rise hp hw.1 h
    simp only [inWrite, show r ≤ 45 by omega, show r + 1 ≤ 45 by omega, if_true]
    exact h'
  · exact inHeader_write hw
  · obtain ⟨j, rfl⟩ : ∃ j, r = 46 + j := ⟨r - 46, by omega⟩
    simp only [inWrite, slotLevel]
    rw [if_neg (by omega), if_neg (by omega), if_pos (by omega), if_neg (by omega), if_neg (by omega),
      if_pos (by omega), decide_eq_false (by omega), Bool.false_or, show 63 - (46 + j) = 17 - j by omega,
      Nat.add_sub_cancel_left, inWriteTail_rise (by omega), show 46 + j + 1 - 46 = j + 1 by omega]
  · exact inWriteTail_end hpa

theorem inRead_rise (hp : d.phase = .hunting) (hd : d.drive = none) (hw : ReadFields w) (hpa : cmdPa w ∈ d.present)
    {r : Nat} (hr : r < 63) {v : Bool} (hv : r < 46 → v = slotLevel w r) :
    (d.inRead w r).rise v = d.inRead w (r + 1) := by
  obtain h | rfl | h : r < 45 ∨ r = 45 ∨ 45 < r := by omega
  · have h' := early_rise hp hw.1 h
    rw [hv (by omega)]
    simp only [inRead, show r ≤ 45 by omega, show r + 1 ≤ 45 by omega, if_true]
    exact h'
  · rw [hv (by decide)]
    exact inHeader_read hd hw
  · obtain ⟨j, rfl⟩ : ∃ j, r = 46 + j := ⟨r - 46, by omega⟩
    simp only [inRead]
    rw [if_neg (by omega), if_neg (by omega), if_neg (by omega), if_neg (by omega), Nat.add_sub_cancel_left,
      inReadTail_rise hpa (by omega), show 46 + j + 1 - 46 = j + 1 by omega]

/-! ### Falling edges and the drive -/

theorem inWrite_fall (hp : d.phase = .hunting) (r : Nat) : (d.inWrite w r).fall = d.inWrite w r := by
  unfold inWrite
  split_ifs
  · simp [fall, preamble, hp]
  · rfl
  · rfl
  · rfl

theorem inWrite_drive (r : Nat) : (d.inWrite w r).drive = d.drive := by
  unfold inWrite
  split_ifs <;> rfl

theorem inRead_fall (hp : d.phase = .hunting) {r : Nat} (hr : r ≤ 62) : (d.inRead w r).fall = d.inRead w r := by
  unfold inRead
  split_ifs
  · simp [fall, preamble, hp]
  · rfl
  · exact if_neg (by simp only [inReadTail]; omega)

theorem inRead_drive_host (hd : d.drive = none) {r : Nat} (hr : r ≤ 47) : (d.inRead w r).drive = none := by
  unfold inRead
  split_ifs
  · exact hd
  · exact hd
  · exact if_pos (by omega)

/-- From slot 47 on the device drives the register's bits (R104). -/
theorem inRead_drive_data {r : Nat} (hr : 48 ≤ r) : (d.inRead w r).drive =
    some ((regGet d.regs (regKey (cmdPa w) (cmdRa w))).getLsbD (63 - r)) := by
  unfold inRead
  rw [if_neg (by omega), if_neg (by omega), inReadTail]
  simp only
  rw [if_neg (by omega), show 17 - (r - 46) = 63 - r by omega]

end RefDevice
end Sys2Proof.Machine
end

section
/-! PROOFS. The round trip with the reference device (R104): the device follows both frames slot by slot, with no
contention, and a READ samples what a WRITE stored. -/

namespace Sys2Proof.Machine

/-! ### The device over a sequencer step -/

section
variable {s u : State} {d : RefDevice} (hs : s.devices = .reference d)
include hs

theorem devicesAfter_rise (hev : lineEvents .mdc (s.drv .mdc) (u.drv .mdc) = [.rise]) :
    ∃ v, (devicesAfter s u).devices = .reference (d.rise v) ∧ ∀ b, u.wire .mdio = some b → v = b := by
  simp only [devicesAfter, hs, hev]
  cases hwire : u.wire .mdio with
  | some v => exact ⟨v, rfl, fun b hb => Option.some.inj hb⟩
  | none => exact ⟨_, rfl, nofun⟩

theorem devicesAfter_fall (hev : lineEvents .mdc (s.drv .mdc) (u.drv .mdc) = [.fall]) :
    (devicesAfter s u).devices = .reference d.fall := by
  simp only [devicesAfter, hs, hev]

/-- Where MDC makes no edge the device stays as it is. -/
theorem devicesAfter_quiet (hu : u.devices = s.devices)
    (hrise : lineEvents .mdc (s.drv .mdc) (u.drv .mdc) ≠ [.rise])
    (hfall : lineEvents .mdc (s.drv .mdc) (u.drv .mdc) ≠ [.fall]) :
    (devicesAfter s u).devices = .reference d := by
  unfold devicesAfter
  rw [hs]
  dsimp only
  split
  · contradiction
  · contradiction
  · exact hu.trans hs

theorem devNow_reference : s.devNow = d.drive := by rw [State.devNow, hs]
end

/-- MDIO carries what the host drives where no device drives it (R72). -/
theorem wire_of_host {s : State} {b : Bool} (hdrv : s.drv .mdio = some b) (hdev : s.devNow = none) :
    s.wire .mdio = some b := by
  cases hdir : s.dirBit .mdio with
  | false => rw [drv_input hdir] at hdrv; cases hdrv
  | true => rw [← hdrv, drv_output hdir]; simp [State.wire, hdir, hdev]

/-! ### The device along a frame -/

/-- `D n` is the state of the reference device before position `n` of the frame of `c`: each edge of MDC takes it on,
and while the host drives MDIO it drives nothing. -/
structure DeviceFollows (c : Cmd) (m : Mode) (D : Nat → RefDevice) : Prop where
  rise : ∀ n v, n + 1 < traceLen m → mdcHigh m n = false → mdcHigh m (n + 1) = true →
    (∀ b, hostBit m c (riseCount m n) = some b → v = b) → (D n).rise v = D (n + 1)
  fall : ∀ n, n + 1 < traceLen m → mdcHigh m n = true → mdcHigh m (n + 1) = false → (D n).fall = D (n + 1)
  quiet : ∀ n, n + 1 < traceLen m → mdcHigh m (n + 1) = mdcHigh m n → D (n + 1) = D n
  silent : ∀ n, n + 1 < traceLen m → hostOwnsMdio m (n + 1) = true → (D n).drive = none

/-- The device stands at position `n`, no fault has come since `s0`, and no Abort. -/
structure DeviceAt (D : Nat → RefDevice) (s0 : State) (n : Nat) (t : State) : Prop where
  devices : t.devices = .reference (D n)
  fault : t.fault = s0.fault
  apend : t.apend = false

section
variable {c : Cmd} {m : Mode} {n : Nat} {i : Instr} {s t s0 : State} {D : Nat → RefDevice}

theorem FrameStep.drv_uop (h : FrameStep c m n i s t) (l : Line) : (uopResult i s).drv l = t.drv l := by
  rw [h.result, finishUop_drv]

theorem FrameStep.owns (h : FrameStep c m n i s t) : t.dirBit .mdio = hostOwnsMdio m (n + 1) := by
  rw [h.linesAfter.mdioDir, h.after.mode, h.after.upc]

/-- The step shows the device the edge of MDC that its position makes. -/
theorem FrameStep.devices (h : FrameStep c m n i s t) (hD : DeviceFollows c m D)
    (hs : s.devices = .reference (D n)) : t.devices = .reference (D (n + 1)) := by
  have hev : ∀ ev, lineEvents .mdc (s.drv .mdc) (t.drv .mdc) = ev →
      lineEvents .mdc (s.drv .mdc) ((uopResult i s).drv .mdc) = ev := fun _ e => by rw [h.drv_uop, e]
  rw [h.result, finishUop_devices]
  cases h.mdcCase with
  | rise events before after low high count =>
    obtain ⟨v, hv, hwire⟩ := devicesAfter_rise hs (hev _ events)
    rw [hv, hD.rise n v h.inside low high fun b hb => hwire b ?_]
    have hdrv : t.drv .mdio = some b := after.trans hb
    have howns : t.dirBit .mdio = true := by
      cases hdir : t.dirBit .mdio with
      | true => rfl
      | false => rw [drv_input hdir] at hdrv; cases hdrv
    refine wire_of_host ((h.drv_uop _).trans hdrv) ?_
    rw [devNow_reference ((uopResult_devices i s).trans hs)]
    exact hD.silent n h.inside (h.owns.symm.trans howns)
  | fall events high low count =>
    rw [devicesAfter_fall hs (hev _ events), hD.fall n h.inside high low]
  | quiet events same count =>
    have hnot : ∀ e, e = LineEvent.rise ∨ e = .fall →
        lineEvents .mdc (s.drv .mdc) ((uopResult i s).drv .mdc) ≠ [e] := by
      rintro e he
      obtain events | ⟨b, events⟩ := events <;> rw [hev _ events]
      · nofun
      · rcases he with rfl | rfl <;> nofun
    rw [devicesAfter_quiet hs (uopResult_devices i s) (hnot _ (.inl rfl)) (hnot _ (.inr rfl)),
      hD.quiet n h.inside same]

/-- Where the host does not drive MDIO or the device does not, no contention comes (R72). -/
theorem FrameStep.fault (h : FrameStep c m n i s t) (hD : DeviceFollows c m D)
    (hs : s.devices = .reference (D n)) : t.fault = s.fault := by
  have hdir : (uopResult i s).dirBit .mdio = hostOwnsMdio m (n + 1) := by
    rw [← h.owns, h.result, finishUop_dirBit]
  rw [h.result, finishUop_fault, devNow_reference hs, hdir, uopResult_fault]
  cases howns : hostOwnsMdio m (n + 1) with
  | false => simp
  | true => simp [hD.silent n h.inside howns]

theorem DeviceAt.step (hat : DeviceAt D s0 n s) (h : FrameStep c m n i s t) (hD : DeviceFollows c m D) :
    DeviceAt D s0 (n + 1) t :=
  ⟨h.devices hD hat.devices, (h.fault hD hat.devices).trans hat.fault, h.apend.trans hat.apend⟩
end

/-- The last micro-op of a frame shows the device no edge, and raises no fault. -/
theorem lastStep_device {c : Cmd} {m : Mode} {s s0 : State} {D : Nat → RefDevice}
    (h : FrameAt c m (traceLen m - 1) s) (hrel : (lastStep s).released) (hat : DeviceAt D s0 (traceLen m - 1) s) :
    (lastStep s).devices = .reference (D (traceLen m - 1)) ∧ (lastStep s).fault = s0.fault := by
  have hevents : lineEvents .mdc (s.drv .mdc) ((uopResult (.setInput .mdc) s).drv .mdc) = [] ∨
      lineEvents .mdc (s.drv .mdc) ((uopResult (.setInput .mdc) s).drv .mdc) = [.release .mdc] := by
    rw [setInput_drv h.alone.params]
    cases s.drv .mdc with
    | none => exact .inl rfl
    | some b => exact .inr rfl
  constructor
  · rw [lastStep, finishUop_devices]
    refine devicesAfter_quiet hat.devices (uopResult_devices _ s) ?_ ?_ <;>
      obtain e | e := hevents <;> rw [e] <;> nofun
  · have hdir : (uopResult (.setInput .mdc) s).dirBit .mdio = false := by
      have h := hrel.1
      rwa [lastStep, finishUop_dirBit] at h
    rw [lastStep, finishUop_fault, hdir, uopResult_fault, hat.fault]
    simp

/-! ### The device follows both frames -/

/-- The device before position `n` of a WRITE. -/
def RefDevice.alongWrite (d : RefDevice) (w : Word) (n : Nat) : RefDevice := d.inWrite w (riseCount .wr n)

/-- The device before position `n` of a READ: the falling edge of slot 62 ends its tail. -/
def RefDevice.alongRead (d : RefDevice) (w : Word) (n : Nat) : RefDevice :=
  if n ≤ 192 then d.inRead w (riseCount .rd n) else (d.inRead w 63).fall

theorem riseCount_wr_lt {n : Nat} (hhigh : mdcHigh .wr (n + 1) = true) : riseCount .wr n < 64 := by
  simp only [mdcHigh, decide_eq_true_eq] at hhigh
  simp only [riseCount]
  omega

theorem hostBit_slotLevel {m : Mode} (hm : m = .wr ∨ m = .rd) (c : Cmd) (low : BitVec 18) {k : Nat} (hk : k < 46) :
    hostBit m c k = some (RefDevice.slotLevel (cmdWord 0b01#2 c.op c.pa c.ra low) k) := by
  by_cases h32 : k < 32
  · rw [hostBit_preamble hm c h32, RefDevice.slotLevel, decide_eq_true h32, Bool.true_or]
  · rw [hostBit_header hm c low (by omega) (by omega), RefDevice.slotLevel, decide_eq_false h32, Bool.false_or]

theorem riseCount_same {m : Mode} (hm : m = .wr ∨ m = .rd) {n : Nat} (hn : n + 1 < traceLen m)
    (h : ¬ (mdcHigh m n = false ∧ mdcHigh m (n + 1) = true)) : riseCount m (n + 1) = riseCount m n := by
  rw [riseCount_step hm hn, if_neg h]; rfl

section
variable {dev : RefDevice} (hp : dev.phase = .hunting) (hd : dev.drive = none) {pa ra : Addr5}
  (hpa : pa ∈ dev.present)
include hp hd hpa

theorem deviceFollows_write (d : Half) : DeviceFollows ⟨opWrite, pa, ra, some d⟩ .wr
    (dev.alongWrite (cmdWord 0b01#2 opWrite pa ra (0b10#2 ++ d))) := by
  unfold RefDevice.alongWrite
  have hw : WriteFields (cmdWord 0b01#2 opWrite pa ra (0b10#2 ++ d)) :=
    ⟨cmdSt_cmdWord .., cmdOp_cmdWord .., cmdTa_cmdWord ..⟩
  refine ⟨fun n v hn hlow hhigh hv => ?_, fun n hn hhigh _ => ?_, fun n hn hsame => ?_, fun n _ _ => ?_⟩
  · have hlt := riseCount_wr_lt hhigh
    have hbit : hostBit .wr ⟨opWrite, pa, ra, some d⟩ (riseCount .wr n) =
        some (RefDevice.slotLevel (cmdWord 0b01#2 opWrite pa ra (0b10#2 ++ d)) (riseCount .wr n)) := by
      by_cases h46 : riseCount .wr n < 46
      · exact hostBit_slotLevel (.inl rfl) _ _ h46
      · rw [hostBit_write pa ra d (by omega) hlt, RefDevice.slotLevel, decide_eq_false (by omega), Bool.false_or]
    rw [hv _ hbit, RefDevice.inWrite_rise hp hw (by rwa [cmdPa_cmdWord]) hlt, riseCount_step (.inl rfl) hn,
      if_pos ⟨hlow, hhigh⟩]
  · rw [RefDevice.inWrite_fall hp, riseCount_same (.inl rfl) hn (by simp [hhigh])]
  · rw [riseCount_same (.inl rfl) hn (by simp [hsame])]
  · rw [RefDevice.inWrite_drive, hd]

theorem deviceFollows_read (x : BitVec 18) : DeviceFollows ⟨opRead, pa, ra, none⟩ .rd
    (dev.alongRead (cmdWord 0b01#2 opRead pa ra x)) := by
  unfold RefDevice.alongRead
  have hw : ReadFields (cmdWord 0b01#2 opRead pa ra x) := ⟨cmdSt_cmdWord .., cmdOp_cmdWord ..⟩
  refine ⟨fun n v hn hlow hhigh hv => ?_, fun n hn hhigh hlow => ?_, fun n hn hsame => ?_, fun n hn howns => ?_⟩
  · have hpos : n + 1 ≤ 192 ∧ riseCount .rd n < 63 := by
      simp only [mdcHigh, decide_eq_true_eq, decide_eq_false_iff_not] at hlow hhigh
      simp only [riseCount]
      split_ifs <;> omega
    simp only [if_pos hpos.1, if_pos (Nat.le_of_succ_le hpos.1)]
    rw [RefDevice.inRead_rise hp hd hw (by rwa [cmdPa_cmdWord]) hpos.2
      fun h46 => hv _ (hostBit_slotLevel (.inr rfl) _ x h46), riseCount_step (.inr rfl) hn, if_pos ⟨hlow, hhigh⟩]
  · by_cases h192 : n = 192
    · subst h192
      rfl
    · have hpos : n + 1 ≤ 192 ∧ riseCount .rd n ≤ 62 := by
        simp only [mdcHigh, decide_eq_true_eq, decide_eq_false_iff_not] at hlow hhigh
        simp only [riseCount]
        split_ifs <;> omega
      simp only [if_pos hpos.1, if_pos (Nat.le_of_succ_le hpos.1)]
      rw [RefDevice.inRead_fall hp hpos.2, riseCount_same (.inr rfl) hn (by simp [hhigh])]
  · have h192 : n ≠ 192 := by rintro rfl; cases hsame
    have hcount := riseCount_same (.inr rfl) hn (by simp [hsame])
    simp only [hcount, show (n + 1 ≤ 192) = (n ≤ 192) by simp; omega]
  · simp only [hostOwnsMdio, decide_eq_true_eq] at howns
    rw [if_pos (by omega)]
    refine RefDevice.inRead_drive_host hd ?_
    simp only [riseCount]
    split_ifs <;> omega
end

/-! ### A READ samples what the device drives -/

/-- Shifting in the next bit of `v` (R86, R88). -/
theorem shiftLeft_next (v : Half) {j : Nat} (hj : j < 16) :
    shiftLeft (v >>> (16 - j)) (v.getLsbD (15 - j)) = v >>> (15 - j) := by
  apply BitVec.eq_of_getLsbD_eq
  intro k hk
  have hbit : (if v.getLsbD (15 - j) then 1#16 else 0#16).getLsbD k = (decide (k = 0) && v.getLsbD (15 - j)) := by
    cases v.getLsbD (15 - j) <;> simp [BitVec.getLsbD_one]
  rw [shiftLeft, BitVec.getLsbD_or, hbit, BitVec.getLsbD_shiftLeft, BitVec.getLsbD_ushiftRight,
    BitVec.getLsbD_ushiftRight]
  obtain rfl | hpos : k = 0 ∨ 0 < k := by omega
  · simp
  · rw [show 16 - j + (k - 1) = 15 - j + k by omega]
    simp [hk, show k ≠ 0 by omega, show ¬ k < 1 by omega]

/-- In a data-in cell SR takes the bit that the device drives; nowhere else does it change (R86, R99). -/
theorem FrameStep.read_sr {c : Cmd} {n : Nat} {i : Instr} {s t : State} {v : Half} (h : FrameStep c .rd n i s t)
    (hdrive : ∀ j, j < 16 → n = 146 + 3 * j → s.devNow = some (v.getLsbD (15 - j)))
    (hsr : s.sr = some (v >>> (16 - dataBitsDone .rd n))) : t.sr = some (v >>> (16 - dataBitsDone .rd (n + 1))) := by
  have hw := h.before.alone.params
  have hm := h.before.mode
  rw [h.result, finishUop_sr]
  obtain ⟨⟨-, j, hj, hn⟩, rfl⟩ | ⟨hpos, l, hi⟩ := h.uop.atSample_or_lineOp (.inr rfl)
  · have hupc : s.upc = 146 + 3 * j := h.before.upc.trans hn
    have hcount : dataBitsDone .rd n = j := by rw [hn]; simp only [dataBitsDone]; omega
    have hdir : s.dirBit .mdio = false := by
      rw [h.linesBefore.mdioDir, hm, hupc]
      exact decide_eq_false (by omega)
    have hwire : s.wire .mdio = some (v.getLsbD (15 - j)) := by simp [State.wire, hdir, hdrive j hj hn]
    rw [hcount] at hsr
    obtain ⟨b, hhist, hshift⟩ := sample_dataIn .mdio ((atDataIn_iff hm).mpr ⟨j, hj, hupc⟩) hsr
    have hb : b = v.getLsbD (15 - j) := by
      have hrec := hhist.symm.trans (shiftIn_hist _ _)
      rw [inWord_released hw hdir hwire] at hrec
      simpa using hrec
    rw [hshift, hb, shiftLeft_next v hj, hn, dataBitsDone_rd_sample hj, ← hn, hcount,
      show 16 - (j + 1) = 15 - j by omega]
  · rw [lineOp_sr hi (by simp [State.atDataOut, hm]), dataBitsDone_rd_other fun hp => hpos ⟨rfl, hp⟩, hsr]

/-! ### The two frames with the device -/

/-- What a frame leaves with the reference device attached: idle, the lines released, no new fault. -/
structure DeviceRun (s : State) (dev' : RefDevice) (u : State) : Prop where
  mode : u.mode = .idle
  params : u.params.wf = true
  released : u.released
  fault : u.fault = s.fault
  devices : u.devices = .reference dev'

section
variable {s : State} {dev : RefDevice} (halone : SequencerAlone s) (hupc : s.upc = 0) (hapend : s.apend = false)
  (hrel : s.released) (hdev : s.devices = .reference dev) (hp : dev.phase = .hunting) (hd : dev.drive = none)
  {pa ra : Addr5} (hpa : pa ∈ dev.present)
include halone hupc hapend hrel hdev hp hd hpa

/-- A WRITE left to the sequencer stores its data in the device (R104). -/
theorem write_reaches_device {d : Half} (hm : s.mode = .wr) (hcmd : s.cmd = some ⟨opWrite, pa, ra, some d⟩) :
    ∃ u, stepN 198 s = .next u ∧
      DeviceRun s (dev.afterWrite (cmdWord 0b01#2 opWrite pa ra (0b10#2 ++ d))) u := by
  have hD := deviceFollows_write (ra := ra) hp hd hpa d
  obtain ⟨t, es, hf, hat⟩ := wholeFrame (m := .wr) (c := ⟨opWrite, pa, ra, some d⟩) (.inl rfl) (fun _ => nofun)
    ⟨halone, hm, hcmd, hupc⟩ hrel
    (Q := DeviceAt (dev.alongWrite (cmdWord 0b01#2 opWrite pa ra (0b10#2 ++ d))) s) ⟨hdev, rfl, hapend⟩
    (fun n i s' t' hs hq => hq.step hs hD)
  obtain ⟨hdevices, hfault⟩ := lastStep_device hf.before hf.released hat
  exact ⟨_, hf.steps, hf.mode, by simpa [lastStep] using hf.before.alone.params, hf.released, hfault, hdevices⟩

/-- A READ left to the sequencer returns the device's register (R104). -/
theorem read_returns_register (x : BitVec 18) (hm : s.mode = .rd) (hcmd : s.cmd = some ⟨opRead, pa, ra, none⟩)
    (hsr : s.sr = some 0#16) :
    ∃ u, stepN 195 s = .next u ∧ DeviceRun s (dev.inRead (cmdWord 0b01#2 opRead pa ra x) 63).fall u ∧
      u.rdata = some (regGet dev.regs (regKey pa ra)) ∧ u.rdv = true := by
  have hD := deviceFollows_read (ra := ra) hp hd hpa x
  obtain ⟨t, es, hf, hat, hsr'⟩ := wholeFrame (m := .rd) (c := ⟨opRead, pa, ra, none⟩) (.inr rfl) nofun
    ⟨halone, hm, hcmd, hupc⟩ hrel
    (Q := fun n t => DeviceAt (dev.alongRead (cmdWord 0b01#2 opRead pa ra x)) s n t ∧
      t.sr = some (regGet dev.regs (regKey pa ra) >>> (16 - dataBitsDone .rd n)))
    ⟨⟨hdev, rfl, hapend⟩, hsr.trans (congrArg some (BitVec.ushiftRight_eq_zero (Nat.le_refl 16)).symm)⟩
    (fun n i s' t' hs ⟨hq, hsr⟩ => by
      refine ⟨hq.step hs hD, hs.read_sr (fun j hj hn => ?_) hsr⟩
      have hcount : riseCount .rd n = 48 + j := by
        simp only [riseCount]
        rw [if_neg (by omega)]
        omega
      rw [devNow_reference hq.devices, RefDevice.alongRead, if_pos (by omega), hcount,
        RefDevice.inRead_drive_data (by omega),
        cmdPa_cmdWord, cmdRa_cmdWord, show 63 - (48 + j) = 15 - j by omega])
  obtain ⟨hdevices, hfault⟩ := lastStep_device hf.before hf.released hat
  have hlast := hf.before.last_position (.inr rfl) (.setInput .mdc)
  have hsr'' : (uopResult (.setInput .mdc) t).sr = t.sr := (direction_out_sr (l := .mdc) (.inl rfl)).2
  refine ⟨_, hf.steps, ⟨hf.mode, by simpa [lastStep] using hf.before.alone.params, hf.released, hfault, hdevices⟩,
    ?_, ?_⟩
  · rw [lastStep, finishUop_last_rdata hlast, if_pos (by simp [hf.before.mode, hat.apend]), hsr'', hsr']
    rfl
  · rw [lastStep, finishUop_last_rdv hlast]
    simp [hf.before.mode, hat.apend]
end

/-! ### A command and its WAIT (R64) -/

/-- A trace left to the sequencer runs the same under a WAIT. -/
theorem stepN_wait {n : Nat} {s t : State} (hw : s.params.wf = true) (hturns : s.turns = []) (hbusy : s.mode ≠ .idle)
    (hn : s.upc + n ≤ traceLen s.mode) (h : stepN n s = .next t) (rest : List Turn) :
    stepN n (s.withTurns (.wait :: rest)) = .next (t.withTurns (.wait :: rest)) := by
  induction n generalizing s with
  | zero => cases h; rfl
  | succ n ih =>
    have hseq : step s = sequencerTurn s := step_of_sequencerNext ⟨hw, .inl ⟨hturns, rfl⟩⟩
    cases hs : step s with
    | fault f => rw [stepN, hs] at h; cases h
    | refused r => rw [stepN, hs] at h; cases h
    | next s1 =>
      have hs1 := hseq.symm.trans hs
      rw [stepN_succ_of_step hs] at h
      have hwait : step (s.withTurns (.wait :: rest)) = .next (s1.withTurns (.wait :: rest)) := by
        rw [step_wait_busy (s := s.withTurns (.wait :: rest)) hw rfl hbusy]
        exact sequencerTurn_withTurns hw _ hs1
      rw [stepN_succ_of_step hwait]
      obtain rfl | hpos := Nat.eq_zero_or_pos n
      · cases h; rfl
      obtain ⟨hidle, -⟩ | ⟨u, i, -, -, -, rfl⟩ := sequencerTurn_cases hw hs1
      · exact absurd hidle hbusy
      obtain ⟨hmode, hupc, -⟩ := uop_running i (s := s) (by omega)
      exact ih (by simpa using hw) (by simpa using hturns) (by rwa [hmode]) (by rw [hmode, hupc]; omega) h

/-- An accepted command, then a WAIT, take the host to what the trace leaves, with the rest of its turns. -/
theorem stepN_command {n : Nat} {s a u : State} {rest : List Turn} (hstep : step s = .next a)
    (hturns : a.turns = .wait :: rest) (hw : a.params.wf = true) (hbusy : a.mode ≠ .idle) (hupc : a.upc = 0)
    (hn : n = traceLen a.mode) (hrun : stepN n (a.withTurns []) = .next u) (hwu : u.params.wf = true)
    (hidle : u.mode = .idle) : stepN (1 + n + 1) s = .next (u.withTurns rest) := by
  have ha : (a.withTurns []).withTurns (.wait :: rest) = a := by rw [← hturns]; rfl
  have htrace := stepN_wait (s := a.withTurns []) hw rfl hbusy (by simp [hupc, hn]) hrun rest
  rw [ha] at htrace
  have hone : stepN 1 s = .next a := by rw [stepN_succ_of_step hstep]; rfl
  exact stepN_step ((stepN_add hone).trans htrace) (step_wait_idle (s := u.withTurns (.wait :: rest)) hwu rfl hidle)

/-- Settles O60: the WRITE stores `d` in the hunting device, the READ finds it hunting again and samples `d`. -/
theorem readReturnsWhatWriteStored : Obligations.ReadReturnsWhatWriteStored := by
  unfold Obligations.ReadReturnsWhatWriteStored
  intro s dev pa ra d x cw cr hw hmap hidle hrel hdev hok hp hpa hcw hcr hturns
  have hd := hok.drive_none (by simp [hp])
  cases (encode_write pa ra d).symm.trans hcw
  cases (encode_read pa ra x).symm.trans hcr
  have hwf : WriteFields (cmdWord 0b01#2 opWrite pa ra (0b10#2 ++ d)) :=
    ⟨cmdSt_cmdWord .., cmdOp_cmdWord .., cmdTa_cmdWord ..⟩
  have hrf : ReadFields (cmdWord 0b01#2 opRead pa ra x) := ⟨cmdSt_cmdWord .., cmdOp_cmdWord ..⟩
  have hwrite := (step_of_issue hw hturns).trans
    (issueTurn_idle_write (s := s.withTurns [.wait, .issue _, .wait]) hidle hwf)
  rw [cmdPa_cmdWord, cmdRa_cmdWord, cmdData_cmdWord] at hwrite
  obtain ⟨u, hrun, hu⟩ := write_reaches_device (ra := ra) (d := d)
    (s := (acceptWrite pa ra d (s.withTurns [])).withTurns []) ⟨hw, hmap, rfl⟩ rfl rfl hrel hdev hp hd hpa rfl rfl
  have hfirst := stepN_command hwrite rfl hw nofun rfl rfl hrun hu.params hu.mode
  have hread := (step_of_issue (s := u.withTurns [.issue _, .wait]) hu.params rfl).trans
    (issueTurn_idle_read (s := u.withTurns [.wait]) hu.mode hrf)
  rw [cmdPa_cmdWord, cmdRa_cmdWord] at hread
  obtain ⟨v, hrun', hv, hrdata, hrdv⟩ := read_returns_register (ra := ra)
    (s := (acceptRead pa ra (u.withTurns [])).withTurns [])
    ⟨hu.params, (congrArg FaultSet.mapFailed hu.fault).trans hmap, rfl⟩ rfl rfl hu.released hu.devices rfl hd hpa x
    rfl rfl rfl
  have hsecond := stepN_command hread rfl hu.params nofun rfl rfl hrun' hv.params hv.mode
  have hstored : regGet (dev.afterWrite (cmdWord 0b01#2 opWrite pa ra (0b10#2 ++ d))).regs (regKey pa ra) = d := by
    simpa only [cmdPa_cmdWord, cmdRa_cmdWord, cmdData_cmdWord] using
      RefDevice.regGet_afterWrite hok.regs (cmdWord 0b01#2 opWrite pa ra (0b10#2 ++ d))
  exact ⟨_, v.withTurns [], _, (stepN_add hfirst).trans hsecond, hv.mode, rfl, hrdata.trans (congrArg some hstored),
    hrdv, hv.fault.trans hu.fault, hv.devices, rfl, hstored⟩

end Sys2Proof.Machine
end

section
/-! PROOFS. Abort and the end of an aborted command (R109, R110), and inputs sampled in one cycle (R112). -/

namespace Sys2Proof.Machine

/-! ### The host action Abort (R109) -/

theorem abortAction_withTurns (l : List Turn) (s : State) :
    abortAction (s.withTurns l) = (abortAction s).withTurns l := by
  unfold abortAction
  rw [apply_ite (State.withTurns l)]
  rfl

/-- An Abort neither reads nor changes the turns that wait behind it. -/
theorem step_of_abort {s : State} {rest : List Turn} (hw : s.params.wf = true) (ht : s.turns = .abort :: rest) :
    step s = .next ((abortAction s).withTurns rest) := by
  rw [← abortAction_withTurns]
  simp [step, nextTurn, takeTurn, hw, ht, State.withTurns]

/-- Settles O33: before its limit an Abort puts the sequencer two micro-ops from the end of its trace. -/
theorem abortJumpsToTheRelease : Obligations.AbortJumpsToTheRelease := by
  unfold Obligations.AbortJumpsToTheRelease
  intro s rest hw ht
  rw [step_of_abort hw ht]
  refine ⟨fun hm => ?_, fun hm => ?_, fun hm => ?_⟩
  · rw [abortAction_busy (.inl hm), hm]; rfl
  · rw [abortAction_busy (.inr hm), hm]; rfl
  · rw [abortAction_quiet (by rcases hm with hm | hm <;> simp [hm])]; rfl

/-! ### An aborted command (R110) -/

/-- An Abort that finds another one pending, which has moved the sequencer to its limit, does nothing. -/
theorem abortAction_pending {s : State} (ha : s.apend = true) (hpast : abortLimit s.mode ≤ s.upc) :
    abortAction s = s := by
  by_cases hm : s.mode = .wr ∨ s.mode = .rd
  · rw [abortAction_busy hm, if_neg (Nat.not_lt.mpr hpast), ← ha]
  · exact abortAction_quiet hm

/-- No READ runs that has not been aborted, so that no completion to come writes RDATA (R102). -/
def RdataHeld (s : State) : Prop := s.mode = .rd → s.apend = true

theorem RdataHeld.after_uop {s : State} (h : RdataHeld s) (i : Instr) : RdataHeld (finishUop s (uopResult i s)) := by
  by_cases hn : s.upc + 1 = traceLen s.mode
  · have hidle : (finishUop s (uopResult i s)).mode = .idle := finishUop_last_mode (by simpa using hn)
    intro hrd
    cases hidle.symm.trans hrd
  · obtain ⟨hmode, -, hapend⟩ := uop_running i hn
    rwa [RdataHeld, hmode, hapend]

theorem RdataHeld.uop_rdata {s : State} (h : RdataHeld s) (i : Instr) :
    (finishUop s (uopResult i s)).rdata = s.rdata :=
  (finishUop_rdata i).resolve_right fun ⟨hrd, _, ha, _⟩ => by simp [h hrd] at ha

/-- A held RDATA stays, however many steps the sequencer takes. -/
theorem RdataHeld.stepN_rdata {n : Nat} {s t : State} (h : RdataHeld s) (halone : SequencerAlone s)
    (hrun : stepN n s = .next t) : t.rdata = s.rdata := by
  induction n generalizing s with
  | zero => cases hrun; rfl
  | succ n ih =>
    have hturn : step s = sequencerTurn s := step_of_sequencerNext ⟨halone.params, .inl ⟨halone.turns, rfl⟩⟩
    cases hs : step s with
    | next m =>
      rw [stepN_succ_of_step hs] at hrun
      obtain ⟨-, rfl⟩ | ⟨u, i, -, -, -, rfl⟩ := sequencerTurn_cases halone.params (hturn.symm.trans hs)
      · exact ih h halone hrun
      · exact (ih (h.after_uop i) (halone.after_uop i) hrun).trans (h.uop_rdata i)
    | fault f => rw [stepN, hs] at hrun; cases hrun
    | refused r => rw [stepN, hs] at hrun; cases hrun

/-- Settles O34: the rest of the trace completes as R102 has it with APEND set, and under the invariant a pending
abort has moved the sequencer to its limit. -/
theorem abortedCommandReportsAborted : Obligations.AbortedCommandReportsAborted := by
  unfold Obligations.AbortedCommandReportsAborted
  refine ⟨fun s hI halone ha => ?_, fun s rest hI ha ht => ?_⟩
  · have hbusy : s.mode ≠ .idle := by rcases hI.apendBusy ha with hm | hm <;> simp [hm]
    obtain ⟨t, hrun, hidle, hrel, -, -, haborted, hrdv, -⟩ := everyTraceCompletes s hI halone hbusy
    have hheld : RdataHeld s := fun _ => ha
    exact ⟨t, hrun, hidle, haborted.trans ha, by simp [hrdv, ha], hheld.stepN_rdata halone hrun, hrel⟩
  · rw [step_of_abort hI.params ht, abortAction_pending ha (hI.apendPast ha)]
    rfl

/-! ### Inputs sampled in one cycle (R112) -/

theorem step_sampled (s : State) (r a : Bool) (o : Option Word) (rest : List Turn) :
    step { s with turns := .sampled r a o :: rest } =
      if s.params.wf then sampledTurn r a o { s with turns := rest } else .refused .badParameters := rfl

/-- An Abort that is taken, then the Issue that waits behind it. -/
theorem step_issue_after_abort {s m : State} {c : Word} {rest : List Turn} (ht : s.turns = .abort :: .issue c :: rest)
    (h : step s = .next m) :
    s.params.wf = true ∧ step m = issueTurn c ((abortAction s).withTurns rest) := by
  by_cases hw : s.params.wf = true
  · rw [step_of_abort hw ht] at h
    cases h
    exact ⟨hw, step_of_issue (by simpa using hw) rfl⟩
  · rw [step_badParameters hw] at h
    cases h

/-- Settles O54: a sampled turn is a reset, an abort or an Issue where one input stands alone; an Abort leaves the
turns that wait, so that the Issue behind it finds the state of the same cycle. -/
theorem sampledInputsTakeTheirOrder : Obligations.SampledInputsTakeTheirOrder := by
  unfold Obligations.SampledInputsTakeTheirOrder
  intro s a c o rest
  refine ⟨rfl, rfl, rfl, fun m h => ?_⟩
  obtain ⟨hw, hm⟩ := step_issue_after_abort rfl h
  rw [hm, ← abortAction_withTurns, step_sampled, if_pos hw]
  rfl

end Sys2Proof.Machine
end

section
/-! PROOFS. The reset action and its release trace (R122, R123), a block that is not mapped (R125), and MDIO while MDC
is high (R127). -/

namespace Sys2Proof.Machine

/-! ### The reset action (R122) -/

/-- A Reset neither reads nor changes the turns that wait behind it. -/
theorem step_of_reset {s : State} {rest : List Turn} (hw : s.params.wf = true) (ht : s.turns = .reset :: rest) :
    step s = .next ((resetAction s).withTurns rest) := by
  simp [step, nextTurn, takeTurn, hw, ht, State.withTurns, resetAction]

/-- Settles O36: each value is the one the reset action writes, or the field it leaves. -/
theorem resetStartsTheReleaseTrace : Obligations.ResetStartsTheReleaseTrace := by
  unfold Obligations.ResetStartsTheReleaseTrace
  intro s rest hw ht
  exact ⟨_, step_of_reset hw ht, rfl, rfl, rfl, rfl, rfl, rfl, rfl, rfl, rfl, rfl, rfl, rfl⟩

/-! ### The release trace (R123) -/

theorem nextUop_rst {s : State} (hm : s.mode = .rst) : s.nextUop = releaseUop s.upc := by
  rw [State.nextUop, hm]
  rfl

/-- The step of a SETIN makes its line an input and leaves the direction of the other (R74). -/
theorem setInput_step_dirBit {s : State} (l : Line) (hw : s.params.wf = true) (l' : Line) :
    (finishUop s (uopResult (.setInput l) s)).dirBit l' = (s.dirBit l' && !decide (l = l')) := by
  rw [finishUop_dirBit, uopResult_setInput_dirBit hw]

theorem setInput_step_out {s : State} (l : Line) : (finishUop s (uopResult (.setInput l) s)).out = s.out := by
  obtain ⟨hout, -⟩ := direction_out_sr (s := s) (l := l) (.inl rfl)
  rw [finishUop_out, hout]

/-- The first step of the release trace is SETIN MDIO, after which the trace runs on. -/
theorem releaseTrace_first {s : State} (halone : SequencerAlone s) (hm : s.mode = .rst) (hupc : s.upc = 0) :
    ∃ m, step s = .next m ∧ SequencerAlone m ∧ m.mode = .rst ∧ m.upc = 1 ∧ m.dirBit .mdio = false ∧
      m.out = s.out := by
  have hfetch : s.nextUop = some (setIn .mdio) := by rw [nextUop_rst hm, hupc]; rfl
  obtain ⟨hmode, hnext, -⟩ := uop_running (s := s) (.setInput .mdio) (by rw [hm, hupc]; decide)
  refine ⟨_, halone.step_uop hfetch (decodeUop_setIn .mdio), halone.after_uop _, hmode.trans hm, ?_, ?_,
    setInput_step_out .mdio⟩
  · rw [hnext, hupc]
  · rw [setInput_step_dirBit .mdio halone.params]; simp

/-- The second step of the release trace is SETIN MDC, which completes it. -/
theorem releaseTrace_second {s : State} (halone : SequencerAlone s) (hm : s.mode = .rst) (hupc : s.upc = 1)
    (hmdio : s.dirBit .mdio = false) :
    ∃ t, step s = .next t ∧ t.mode = .idle ∧ t.upc = 0 ∧ t.released ∧ t.out = s.out := by
  have hfetch : s.nextUop = some (setIn .mdc) := by rw [nextUop_rst hm, hupc]; rfl
  have hlast : (uopResult (.setInput .mdc) s).upc + 1 = traceLen (uopResult (.setInput .mdc) s).mode := by
    rw [uopResult_mode, uopResult_upc, hm, hupc]; rfl
  refine ⟨_, halone.step_uop hfetch (decodeUop_setIn .mdc), finishUop_last_mode hlast, finishUop_last_upc hlast,
    ⟨?_, ?_⟩, setInput_step_out .mdc⟩
  · rw [setInput_step_dirBit .mdc halone.params, hmdio]; rfl
  · rw [setInput_step_dirBit .mdc halone.params]; simp

/-- Settles O37: the two steps of the release trace, one after the other. -/
theorem releaseTraceLeavesTheBlockIdle : Obligations.ReleaseTraceLeavesTheBlockIdle := by
  unfold Obligations.ReleaseTraceLeavesTheBlockIdle
  intro s halone hm hupc
  obtain ⟨m, hfirst, halone', hm', hupc', hmdio, hout⟩ := releaseTrace_first halone hm hupc
  obtain ⟨t, hsecond, hidle, ht, hrel, hout'⟩ := releaseTrace_second halone' hm' hupc' hmdio
  exact ⟨m, t, hfirst, busy_of_mode (by simp [hm']), hmdio, hsecond, hidle, not_busy_of_mode hidle, ht, hrel,
    hout'.trans hout⟩

/-! ### A block that is not mapped (R125) -/

/-- The block waits in RST and its window is not mapped. -/
def MapFailedInReset (s : State) : Prop := s.fault.mapFailed = true ∧ s.mode = .rst

/-- No micro-op is enabled under MapFailed and no command is accepted in RST, so that no move leaves RST. -/
theorem MapFailedInReset.move {s t : State} (h : MapFailedInReset s) (hmove : Move s t) : MapFailedInReset t := by
  obtain ⟨hmap, hm⟩ := h
  refine ⟨hmove.faults_within.mapFailed hmap, ?_⟩
  cases hmove with
  | stay => exact hm
  | uop u i busy mapped => rw [hmap] at mapped; cases mapped
  | acceptWrite pa ra d idle => rw [hm] at idle; cases idle
  | acceptRead pa ra idle => rw [hm] at idle; cases idle
  | illegal => exact hm
  | whileBusy => exact hm
  | abort => rwa [abortAction_mode]
  | reset => rfl
  | other r w own => rwa [regWrite_mode]
  | terminate => exact hm

theorem MapFailedInReset.after_step {s t : State} (h : MapFailedInReset s) (hstep : step s = .next t) :
    MapFailedInReset t :=
  step_invariant (fun _ _ hs => hs) (fun _ _ _ hs hmove => hs.move hmove) h hstep

/-- Settles O39: every step that goes on keeps `MapFailedInReset`; an Issue finds the block busy, and a sequencer
turn finds no step enabled. -/
theorem mapFailureNeverEnds : Obligations.MapFailureNeverEnds := by
  unfold Obligations.MapFailureNeverEnds
  refine ⟨fun s t hmap hm hstep => ?_, fun s c rest hw _ hm ht => ?_, fun s s' hnext hmap hm => ?_⟩
  · obtain ⟨hmap', hm'⟩ := MapFailedInReset.after_step ⟨hmap, hm⟩ hstep
    have hbusy : t.mode ≠ .idle := by simp [hm']
    exact ⟨hmap', hm', busy_of_mode hbusy, fun hfinal => hbusy hfinal.1⟩
  · have hbusy : (s.withTurns rest).mode ≠ .idle := by simp [hm]
    exact ⟨_, (step_of_issue hw ht).trans (issueTurn_busy c hbusy), rfl⟩
  · rw [step_of_sequencerNext hnext]
    obtain ⟨l, rfl⟩ := hnext.eq_withTurns
    exact sequencerTurn_mapFailed (s := s.withTurns l) (by simp [hm]) hmap

/-! ### MDIO while MDC is high (R127) -/

/-- The positions with MDC high in a slot the host drives are the last of BIT(b) (R79). -/
theorem hostSlot_mdcHigh {m : Mode} {n : Nat} (hm : m = .wr ∨ m = .rd) (hown : hostOwnsMdio m n = true)
    (hhigh : mdcHigh m n = true) : 4 ≤ n ∧ (n - 4) % 3 = 2 ∧ n + 2 < traceLen m ∧ (m = .rd → n ≤ 142) := by
  rcases hm with rfl | rfl <;> simp only [hostOwnsMdio, mdcHigh, decide_eq_true_eq] at hown hhigh <;>
    simp only [traceLen]
  · exact ⟨by omega, by omega, by omega, nofun⟩
  · exact ⟨by omega, by omega, by omega, fun _ => hown.2⟩

/-- In a slot the host drives, what follows the rise of MDC is its fall (R79). -/
theorem FrameUop.mdcFall {c : Cmd} {m : Mode} {n : Nat} {i : Instr} (h : FrameUop c m n i) (hm : m = .wr ∨ m = .rd)
    (hown : hostOwnsMdio m n = true) (hhigh : mdcHigh m n = true) : i = .driveLow .mdc := by
  obtain ⟨h4, hcell, hlen, hrd⟩ := hostSlot_mdcHigh hm hown hhigh
  cases h with
  | fall k hk => rfl
  | turnaround => omega
  | dataRise hr j hj => have := hrd hr; omega
  | dataSample hr j hj => have := hrd hr; omega
  | dataFall hr j hj => rfl
  | _ => omega

/-- A driven line has its direction set and its latch at the level driven (R71). -/
theorem drv_some {s : State} {l : Line} {b : Bool} (h : s.drv l = some b) : s.dirBit l = true ∧ s.outBit l = b := by
  unfold State.drv at h
  split at h
  · next hd => exact ⟨hd, Option.some.inj h⟩
  · cases h

/-- Before its release a running command with MDC and MDIO driven, MDC high, performs the fall of MDC next. -/
theorem Inv.uop_of_mdcHigh {s : State} {u : BitVec 4} {i : Instr} (hI : Inv s) (hterm : s.terminated = false)
    (hm : s.mode = .wr ∨ s.mode = .rd) (hn : s.upc + 2 < traceLen s.mode) (hmdc : s.drv .mdc = some true)
    (hmdio : s.drv .mdio ≠ none) (hu : s.nextUop = some u) (hi : decodeUop u = .ok i) : i = .driveLow .mdc := by
  obtain ⟨c, hc⟩ := hI.cmd_some hm
  obtain ⟨b, hb⟩ := Option.ne_none_iff_exists'.mp hmdio
  obtain ⟨hdir, hout⟩ := drv_some hmdc
  obtain ⟨hown, -⟩ := drv_some hb
  have hp := hI.lines hterm c hc hm (.inl hn)
  have hupc : 3 ≤ s.upc := hp.mdcDir.mp hdir
  exact (frameUop_of_nextUop hc hm hu hi).mdcFall hm (hp.mdioDir.symm.trans hown)
    ((hp.mdcLatch (by omega)).symm.trans hout)

/-- Settles O57: the step is the fall of MDC, which is no operation on MDIO. -/
theorem mdioIsStableWhileMdcIsHigh : Obligations.MdioIsStableWhileMdcIsHigh := by
  unfold Obligations.MdioIsStableWhileMdcIsHigh
  intro s s' t hI hterm hnext hm hn hmdc hmdio hstep
  rw [step_of_sequencerNext hnext] at hstep
  obtain ⟨l, rfl⟩ := hnext.eq_withTurns
  obtain ⟨-, rfl⟩ | ⟨u, i, -, hu, hi, rfl⟩ := sequencerTurn_cases (s := s.withTurns l) hnext.1 hstep
  · rfl
  · cases hI.uop_of_mdcHigh hterm hm hn hmdc hmdio hu hi
    rw [finishUop_drv]
    exact lineOp_drv_other (s := s.withTurns l) (.inl rfl) hnext.1 (by decide)

end Sys2Proof.Machine
end
